-- ==== Sys2Proof/Word.lean ====
section
/-!
DEFINITION. The machine's word types: the 8-bit byte of `MEM` and of the general registers (R20, R50), the 16-bit
word of instructions, `pc`, `I` and the stack entries (R24, R27, R30, R80), and the register number (R20).
-/

namespace Sys2Proof

/-- An 8-bit value: a general register, a timer, a byte of memory (R20, R28, R50). -/
abbrev Byte := BitVec 8

/-- A 16-bit value: an instruction word, `pc`, `I`, a stack entry (R24, R27, R30, R80). -/
abbrev Word := BitVec 16

/-- A general register's number, 0 to 15; every value is legal in every X and Y field (R21). -/
abbrev Reg := Fin 16

end Sys2Proof
end

