-- ==== Sys2Proof/Config.lean ====
section
/-!
DEFINITION. What one instance of the block fixes for its life (the parameters of R6), and the free values: the two
inputs of a step of which the spec says only that they are unconstrained draws.
-/

namespace Sys2Proof

/-- `VF_PRIORITY` (R6, R141): which write wins when an ALU instruction that writes the flag has X = 15. -/
inductive VfPriority where
  /-- the flag is written last and the result is lost -/
  | flag
  /-- the result is written last and the flag is lost -/
  | result
  deriving DecidableEq, Repr

/-- `SHIFT_SOURCE` (R6, R137, R139): which register `8xy6` and `8xyE` shift. -/
inductive ShiftSource where
  /-- `x[X]` is shifted in place and Y is ignored -/
  | x
  /-- `x[Y]` is shifted into `x[X]` -/
  | y
  deriving DecidableEq, Repr

/-- `FONT` (R6, R54): 80 bytes, glyph `d` at `5*d` to `5*d+4`. -/
abbrev Font := Vector Byte 80

/-- The named parameters of R6 that are values. They are fixed for the life of a model instance (R35): no step changes
them. They stand in the machine's state so that a claim about every state is a claim about every choice. -/
structure Params where
  /-- `VF_PRIORITY` -/
  vfPriority  : VfPriority
  /-- `SHIFT_SOURCE` -/
  shiftSource : ShiftSource
  /-- `FONT` -/
  font        : Font
  deriving DecidableEq, Repr

/-- FREE VALUE (log entry 4). `Rand()` of R17 and R123: the byte of the `rnd` input at the `n`-th draw. Nothing constrains
it (U1: "a fresh unconstrained 8-bit draw at each execution"). -/
opaque Config.rnd : Nat → Byte

/-- FREE VALUE (log entry 3). `KEY_OOR` of R170: the answer at the `n`-th draw of a key query whose index is 16 to 255.
Nothing constrains it (U2: "a fresh unconstrained Boolean at each query"). -/
opaque Config.keyOor : Nat → Bool

end Sys2Proof
end

