-- ==== Sys2Proof/Machine/Params.lean ====
section
/-!
DEFINITION. The default values of the parameters of R6, which `State.reset` starts with.
-/

namespace Sys2Proof.Machine

/-- The glyph bytes of digits 0 to 7, addresses `0x000` to `0x027` (R54, from general knowledge: log entry 5). -/
def glyphs0To7 : Vector Byte 40 :=
  (#v[0xF0, 0x90, 0x90, 0x90, 0xF0, 0x20, 0x60, 0x20, 0x20, 0x70] : Vector Byte 10) ++
  (#v[0xF0, 0x10, 0xF0, 0x80, 0xF0, 0xF0, 0x10, 0xF0, 0x10, 0xF0] : Vector Byte 10) ++
  (#v[0x90, 0x90, 0xF0, 0x10, 0x10, 0xF0, 0x80, 0xF0, 0x10, 0xF0] : Vector Byte 10) ++
  (#v[0xF0, 0x80, 0xF0, 0x90, 0xF0, 0xF0, 0x10, 0x20, 0x40, 0x40] : Vector Byte 10)

/-- The glyph bytes of digits 8 to F, addresses `0x028` to `0x04F` (R54, from general knowledge: log entry 5). -/
def glyphs8ToF : Vector Byte 40 :=
  (#v[0xF0, 0x90, 0xF0, 0x90, 0xF0, 0xF0, 0x90, 0xF0, 0x10, 0xF0] : Vector Byte 10) ++
  (#v[0xF0, 0x90, 0xF0, 0x90, 0x90, 0xE0, 0x90, 0xE0, 0x90, 0xE0] : Vector Byte 10) ++
  (#v[0xF0, 0x80, 0x80, 0x80, 0xF0, 0xE0, 0x90, 0x90, 0x90, 0xE0] : Vector Byte 10) ++
  (#v[0xF0, 0x80, 0xF0, 0x80, 0xF0, 0xF0, 0x80, 0xF0, 0x80, 0x80] : Vector Byte 10)

/-- The default of `FONT` (R6, R54). -/
def defaultFont : Font := glyphs0To7 ++ glyphs8ToF

/-- The defaults R6 decides: `VF_PRIORITY = flag` (D7), `SHIFT_SOURCE = x` (D8), `FONT` the table of R54 (D21). -/
def defaultParams : Params := { vfPriority := .flag, shiftSource := .x, font := defaultFont }

end Sys2Proof.Machine
end

