-- ==== Sys2Proof/Syntax.lean ====
section
/-!
DEFINITION. The instruction set as syntax: the 33 instructions of R86, one constructor per row of
spec/opcode_table.json, in the table's order.
-/

namespace Sys2Proof

/-- The 33 instructions (R86). Operands are the fields of R82 and R83: `x`, `y` register numbers, `kk` an unsigned
8-bit immediate, `nnn` an unsigned 12-bit address, `n` an unsigned row count. -/
inductive Instr where
  /-- `00E0` `CLS`, clear the framebuffer (R151). -/
  | cls
  /-- `00EE` `RET`, return from subroutine (R103). -/
  | ret
  /-- `1nnn` `JP nnn`, absolute jump (R101). -/
  | jp (nnn : BitVec 12)
  /-- `2nnn` `CALL nnn`, call subroutine (R102). -/
  | call (nnn : BitVec 12)
  /-- `3xkk` `SE Vx, kk`, skip if register equals immediate (R104). -/
  | seImm (x : Reg) (kk : Byte)
  /-- `4xkk` `SNE Vx, kk`, skip if register differs from immediate (R105). -/
  | sneImm (x : Reg) (kk : Byte)
  /-- `5xy0` `SE Vx, Vy`, skip if registers equal (R106). -/
  | seReg (x y : Reg)
  /-- `6xkk` `LD Vx, kk`, load immediate (R120). -/
  | ldImm (x : Reg) (kk : Byte)
  /-- `7xkk` `ADD Vx, kk`, add immediate without flag (R121). -/
  | addImm (x : Reg) (kk : Byte)
  /-- `8xy0` `LD Vx, Vy`, copy (R131). -/
  | ldReg (x y : Reg)
  /-- `8xy1` `OR Vx, Vy` (R132). -/
  | orReg (x y : Reg)
  /-- `8xy2` `AND Vx, Vy` (R133). -/
  | andReg (x y : Reg)
  /-- `8xy3` `XOR Vx, Vy` (R134). -/
  | xorReg (x y : Reg)
  /-- `8xy4` `ADD Vx, Vy`, add with carry out (R135). -/
  | addReg (x y : Reg)
  /-- `8xy5` `SUB Vx, Vy`, subtract `Vy` from `Vx` (R136). -/
  | sub (x y : Reg)
  /-- `8xy6` `SHR Vx, Vy`, shift right by one (R137). -/
  | shr (x y : Reg)
  /-- `8xy7` `SUBN Vx, Vy`, reverse subtract (R138). -/
  | subn (x y : Reg)
  /-- `8xyE` `SHL Vx, Vy`, shift left by one (R139). -/
  | shl (x y : Reg)
  /-- `9xy0` `SNE Vx, Vy`, skip if registers differ (R107). -/
  | sneReg (x y : Reg)
  /-- `Annn` `LD I, nnn`, load the index register (R122). -/
  | ldI (nnn : BitVec 12)
  /-- `Cxkk` `RND Vx, kk`, masked random byte (R123). -/
  | rnd (x : Reg) (kk : Byte)
  /-- `Dxyn` `DRW Vx, Vy, n`, XOR-draw an `n`-row sprite (R153). -/
  | drw (x y : Reg) (n : Nat)
  /-- `Ex9E` `SKP Vx`, skip if key held (R171). -/
  | skp (x : Reg)
  /-- `ExA1` `SKNP Vx`, skip if key not held (R172). -/
  | sknp (x : Reg)
  /-- `Fx07` `LD Vx, DT`, read the delay timer (R180). -/
  | ldVxDt (x : Reg)
  /-- `Fx0A` `LD Vx, K`, wait for a key (R173). -/
  | ldVxK (x : Reg)
  /-- `Fx15` `LD DT, Vx`, set the delay timer (R181). -/
  | ldDtVx (x : Reg)
  /-- `Fx18` `LD ST, Vx`, set the sound timer (R182). -/
  | ldStVx (x : Reg)
  /-- `Fx1E` `ADD I, Vx`, add a register to the index register (R191). -/
  | addI (x : Reg)
  /-- `Fx29` `LD F, Vx`, point the index register at a font glyph (R192). -/
  | ldF (x : Reg)
  /-- `Fx33` `LD B, Vx`, store three decimal digits (R193). -/
  | ldB (x : Reg)
  /-- `Fx55` `LD [I], Vx`, store registers 0 to X (R194). -/
  | storeRegs (x : Reg)
  /-- `Fx65` `LD Vx, [I]`, load registers 0 to X (R195). -/
  | loadRegs (x : Reg)
  deriving DecidableEq, Repr

end Sys2Proof
end

