-- ==== Sys2Proof/Machine/State.lean ====
section
/-!
DEFINITION. The machine's state as plain data (R20 to R34), the reasons a step can stop, and the state after `Reset`
(R36). The names are the spec's (R16): `regs` is `x`, `index` is `I`, `fb` is `FB`.
-/

namespace Sys2Proof.Machine

/-- `RUN` (R34). -/
inductive RunState where
  /-- `HALTED` (0): a fatal condition has halted the block; only `Reset` leaves it (R210) -/
  | halted
  /-- `RUNNING` (1) -/
  | running
  deriving DecidableEq, Repr

/-- The fatal conditions (R200, R201). -/
inductive Cause where
  /-- code 1: an opcode pattern that is none of the 33 (R202) -/
  | unsupportedInstruction
  /-- code 2: `2nnn` with `SP = 16` (R203) -/
  | stackOverflow
  /-- code 3: `00EE` with `SP = 0` (R204) -/
  | stackUnderflow
  /-- code 4: `Load` of more than 3584 bytes (R205) -/
  | loadError
  deriving DecidableEq, Repr

/-- The host's moves: the four events of R7 and a change of the `keys` input (R11). A change of `rnd` needs no event: the
byte is a free value at every draw (log entry 4). -/
inductive HostEvent where
  /-- `Reset` (R240) -/
  | reset
  /-- `Load(bytes)` (R244) -/
  | load (bytes : List Byte)
  /-- `Step` (R90) -/
  | step
  /-- `Tick` (R183) -/
  | tick
  /-- the host changes `keys`; bit `k` is `keys[k]` (R7, R170) -/
  | setKeys (keys : BitVec 16)
  deriving DecidableEq, Repr

/-- `FB` (R32): row `r` is the `r`-th vector element, column `c` its bit `c`. -/
abbrev Framebuffer := Vector (BitVec 64) 32

/-- Everything the spec gives the machine, and after it what the model adds: the host's input `keys` and its events, and
the count of draws. -/
structure State where
  /-- `x[0]` to `x[15]`, the general registers (R20) -/
  regs       : Vector Byte 16
  /-- the program counter (R24) -/
  pc         : Word
  /-- `I`, the index register (R27) -/
  index      : Word
  /-- `SP`, the stack depth, 0 to 16 (R30, R31) -/
  sp         : Fin 17
  /-- `STACK[0]` to `STACK[15]` (R30) -/
  stack      : Vector Word 16
  /-- `DT`, the delay timer (R28) -/
  dt         : Byte
  /-- `ST`, the sound timer (R29) -/
  st         : Byte
  /-- `MEM` (R50): the bytes that differ from what `Reset` leaves, addresses strictly rising -/
  mem        : List Host.Cell
  /-- `FB`, the framebuffer (R32) -/
  fb         : Framebuffer
  /-- `RUN` (R34) -/
  run        : RunState
  /-- `FAULT_CAUSE` (R34, R201) -/
  faultCause : BitVec 3
  /-- `FAULT_INSTR` (R34) -/
  faultInstr : Word
  /-- the host's input `keys`; bit `k` is `keys[k]` (R7, R170; log entry 6) -/
  keys       : BitVec 16
  /-- the parameters of R6, which no step changes (R35; log entry 1) -/
  params     : Params
  /-- how many free values have been drawn (R12, R17; log entry 4) -/
  draws      : Nat
  /-- the host's events not yet taken, the next one first; none means that the host issues `Step` (R11; log entry 7) -/
  schedule   : List HostEvent
  deriving DecidableEq, Repr

/-- Reasons the machine stops with a fault: NONE. Every exceptional condition of the spec is a fatal condition (R200),
whose entry is a next state (R206), and no address, alignment, arithmetic or privilege fault exists (R200). Nobody raises
a fault, which is safe: there is no stop to lean on. -/
inductive Fault where
  deriving DecidableEq, Repr

/-- Reasons the model gives no meaning. -/
inductive Refusal where
  /-- raised by `exec` for an instruction the model gives no meaning yet; no arm of `exec` raises it now; safe, since the
  model stops where the hardware goes on -/
  | notModelled (mnemonic : String)
  deriving DecidableEq, Repr

/-- The state after `Reset` (R36). The model's own fields: `keys` no key held (log entry 6), `params` the defaults of R6
(log entry 1), `draws` 0 (log entry 4), `schedule` empty (log entry 7). -/
def State.reset : State :=
  { regs := Vector.replicate 16 0#8
    pc := 0x0200#16
    index := 0#16
    sp := 0
    stack := Vector.replicate 16 0#16
    dt := 0#8
    st := 0#8
    mem := []
    fb := Vector.replicate 32 0#64
    run := .running
    faultCause := 0#3
    faultInstr := 0#16
    keys := 0#16
    params := defaultParams
    draws := 0
    schedule := [] }

end Sys2Proof.Machine
end

