-- ==== Sys2Proof/Machine/Memory.lean ====
section
/-!
DEFINITION. `MEM` as a list of (address, byte) pairs in one canonical form: addresses strictly rising and below 4096
(R50), and no entry equal to what an unlisted address reads as, which is what `Reset` leaves there (R36, R52).
-/

namespace Sys2Proof.Machine

/-- What an address holds that nothing has written since `Reset`: `FONT` at `0x000` to `0x04F`, 0 elsewhere (R36, R52). -/
def Memory.unlisted (font : Font) (a : Nat) : Byte :=
  if h : a < 80 then font[a] else 0#8

/-- `MEM[a]`. -/
def Memory.read (font : Font) : List Host.Cell → Nat → Byte
  | [], a => Memory.unlisted font a
  | (b, v) :: rest, a => if b = a then v else Memory.read font rest a

/-- The list with the entry `(a, v)` in its place, and no other entry for `a`. -/
def Memory.insert (a : Nat) (v : Byte) : List Host.Cell → List Host.Cell
  | [] => [(a, v)]
  | (b, w) :: rest =>
    if a < b then (a, v) :: (b, w) :: rest
    else if a = b then (a, v) :: rest
    else (b, w) :: Memory.insert a v rest

/-- The list without an entry for `a`. -/
def Memory.erase (a : Nat) (m : List Host.Cell) : List Host.Cell :=
  m.filter fun c => c.1 != a

/-- `MEM[a] <- v`, keeping the canonical form: the value an unlisted address reads as is not listed. -/
def Memory.write (font : Font) (m : List Host.Cell) (a : Nat) (v : Byte) : List Host.Cell :=
  if v = Memory.unlisted font a then Memory.erase a m else Memory.insert a v m

/-- The canonical form. -/
abbrev Memory.wf (font : Font) (m : List Host.Cell) : Prop :=
  m.Pairwise (fun c d => c.1 < d.1) ∧ ∀ c ∈ m, c.1 < 4096 ∧ c.2 ≠ Memory.unlisted font c.1

end Sys2Proof.Machine
end

