-- ==== Sys2Proof/Machine/Ops.lean ====
section
/-!
DEFINITION. The named operations over the state: registers, `pc` and `I` with their reduction modulo 4096 (R24, R27),
the byte accesses (R17, R56), the call stack (R30), the framebuffer's pixels (R32), the draws (R12), and the one entry of
a fatal condition (R206). There is no return from a fatal condition (R211): only `Reset` leaves the halt.
-/

namespace Sys2Proof.Machine

/-! ### General registers (R20) -/

/-- `x[i]` (R16). -/
def State.readReg (s : State) (i : Reg) : Byte := s.regs[i.val]

/-- `x[i] <- v` (R16). -/
def State.writeReg (s : State) (i : Reg) (v : Byte) : State := { s with regs := s.regs.set i.val v }

/-! ### Program counter and index register -/

/-- "every value written to `pc` is reduced modulo 4096" (R24), and so for `I` (R27). -/
def wrapAddr (v : Word) : Word := v % 4096#16

/-- `pc <- t` (R16, R24). -/
def State.setPc (s : State) (t : Word) : State := { s with pc := wrapAddr t }

/-- `next = (pc + 2) mod 4096` (R17, R26). -/
def State.nextPc (s : State) : Word := wrapAddr (s.pc + 2#16)

/-- `skip = (pc + 4) mod 4096` (R17, R26). -/
def State.skipPc (s : State) : Word := wrapAddr (s.pc + 4#16)

/-- `pc <- next`: how a straight-line instruction ends (R25). -/
def State.advance (s : State) : State := s.setPc s.nextPc

/-- `if c then pc <- skip else pc <- next`: how a conditional skip ends (R25). -/
def State.skipIf (s : State) (c : Bool) : State := s.setPc (if c then s.skipPc else s.nextPc)

/-- `I <- t` (R27). -/
def State.setIndex (s : State) (t : Word) : State := { s with index := wrapAddr t }

/-! ### Memory (R17, R56): every address is reduced modulo 4096 at the access -/

/-- `MemRead(a, 1)`. -/
def State.readByte (s : State) (a : Nat) : Byte := Memory.read s.params.font s.mem (a % 4096)

/-- `MemWrite(a, 1, v)`. -/
def State.writeByte (s : State) (a : Nat) (v : Byte) : State :=
  { s with mem := Memory.write s.params.font s.mem (a % 4096) v }

/-- The bytes at `a`, `a + 1`, ..., `a + n - 1`. -/
def State.readBytes (s : State) (a n : Nat) : List Byte := (List.range n).map fun k => s.readByte (a + k)

/-- `MemWrite` of each byte of the list in turn, the first at `a`, the next at `a + 1`, and so on. -/
def State.writeBytes (s : State) (a : Nat) : List Byte → State
  | [] => s
  | v :: rest => State.writeBytes (s.writeByte a v) (a + 1) rest

/-! ### Call stack (R30) -/

/-- `STACK[SP] <- v; SP <- SP + 1`. -/
def State.push (s : State) (v : Word) (h : s.sp.val < 16) : State :=
  { s with stack := s.stack.set s.sp.val v, sp := ⟨s.sp.val + 1, by omega⟩ }

/-- `STACK[SP-1]`, the newest live entry. -/
def State.top (s : State) (h : 0 < s.sp.val) : Word := s.stack[s.sp.val - 1]

/-- `SP <- SP - 1`; the entry left behind is not cleared (R31). -/
def State.pop (s : State) : State := { s with sp := ⟨s.sp.val - 1, by omega⟩ }

/-! ### Timers (R28, R29) -/

/-- `DT <- v`. -/
def State.setDt (s : State) (v : Byte) : State := { s with dt := v }

/-- `ST <- v`. -/
def State.setSt (s : State) (v : Byte) : State := { s with st := v }

/-- One count: "if DT > 0 then DT <- DT - 1" (R183). -/
def countDown (v : Byte) : Byte := if v = 0#8 then 0#8 else v - 1#8

/-! ### Framebuffer (R32) -/

/-- `FB[r][c]`; false outside the grid, where there is no pixel. -/
def pixel (fb : Framebuffer) (r c : Nat) : Bool := if h : r < 32 then fb[r].getLsbD c else false

/-- `FB[r][c] <- b`; nothing outside the grid. -/
def setPixel (fb : Framebuffer) (r c : Nat) (b : Bool) : Framebuffer :=
  if h : r < 32 then
    fb.set r (if b then fb[r] ||| BitVec.twoPow 64 c else fb[r] &&& ~~~(BitVec.twoPow 64 c))
  else fb

/-- All pixels off. -/
def clearFramebuffer : Framebuffer := Vector.replicate 32 0#64

/-- `FB <- fb`. -/
def State.setFb (s : State) (fb : Framebuffer) : State := { s with fb := fb }

/-- The framebuffer read port (R33): `fb_out[r*64 + c] = FB[r][c]`. -/
def State.fbOut (s : State) : BitVec 2048 :=
  (List.finRange 32).foldl
    (fun (out : BitVec 2048) (r : Fin 32) => out ||| BitVec.shiftLeft (s.fb[r.val].setWidth 2048) (64 * r.val)) 0#2048

/-! ### Draws (R12, R17) -/

/-- One free value has been used. -/
def State.countDraw (s : State) : State := { s with draws := s.draws + 1 }

/-! ### Fatal conditions (R200, R201, R206) -/

/-- `FAULT_CAUSE` of each condition (R201). -/
def Cause.code : Cause → BitVec 3
  | .unsupportedInstruction => 1#3
  | .stackOverflow => 2#3
  | .stackUnderflow => 3#3
  | .loadError => 4#3

/-- The reason string of each condition (R201). -/
def Cause.reason : Cause → String
  | .unsupportedInstruction => "unsupported instruction"
  | .stackOverflow => "stack overflow"
  | .stackUnderflow => "stack underflow"
  | .loadError => "program too large"

/-- The condition a code of `FAULT_CAUSE` stands for; 0 is none and "Codes 5 to 7 are never produced" (R201). -/
def Cause.ofCode (code : BitVec 3) : Option Cause :=
  if code = 1#3 then some .unsupportedInstruction
  else if code = 2#3 then some .stackOverflow
  else if code = 3#3 then some .stackUnderflow
  else if code = 4#3 then some .loadError
  else none

/-- Fatal entry: `RUN <- HALTED; FAULT_CAUSE <- code; FAULT_INSTR <- w`. "Nothing else changes" (R206). -/
def State.raiseFatal (s : State) (c : Cause) (w : Word) : State :=
  { s with run := .halted, faultCause := c.code, faultInstr := w }

end Sys2Proof.Machine
end

