-- ==== Sys2Proof/Machine/Operands.lean ====
section
/-!
DEFINITION. Every operand form of the instruction set: register and immediate operands, the shifted operand, the memory
operand `(I + k) mod 4096` (R190), the key query (R170) and the random byte (R123).
-/

namespace Sys2Proof.Machine

/-- `NNN`, "zero-extended to the 16-bit width of `pc` and `I`" (R83). -/
def address (nnn : BitVec 12) : Word := nnn.setWidth 16

/-- A register as an addend of `I`: `zext_16(x[X])` (R191, R192). -/
def State.zextReg (s : State) (x : Reg) : Word := (s.readReg x).setWidth 16

/-- `s = a if SHIFT_SOURCE = x else b` (R137, R139). -/
def State.shiftOperand (s : State) (x y : Reg) : Byte :=
  match s.params.shiftSource with
  | .x => s.readReg x
  | .y => s.readReg y

/-- The address of the memory operand `I + k`; the access reduces it modulo 4096 (R56, R190). -/
def State.operandAddr (s : State) (k : Nat) : Nat := s.index.toNat + k

/-- `Key(k)`: `keys[k]` when `k <= 15`, and `KEY_OOR`, a free value, when `k >= 16` (R17, R170). -/
def State.key (s : State) (k : Byte) : Bool :=
  if k.toNat < 16 then s.keys.getLsbD k.toNat else Config.keyOor s.draws

/-- The state after `Key(k)`: a query out of range has used one draw. -/
def State.afterKey (s : State) (k : Byte) : State := if k.toNat < 16 then s else s.countDraw

/-- "the least such k" with `keys[k]`, scanning 0 to 15 in ascending order (R173). -/
def lowestKey (keys : BitVec 16) : Option Nat := (List.range 16).find? fun k => keys.getLsbD k

/-- `Rand()`, a free value (R17, R123). -/
def State.rand (s : State) : Byte := Config.rnd s.draws

/-- `x[0]` to `x[X]`, in order (R194). -/
def State.regsUpTo (s : State) (x : Reg) : List Byte := s.regs.toList.take (x.val + 1)

/-- `for i in 0 .. X: x[i] <- MemRead(I + i, 1)` (R195). -/
def State.loadUpTo (s : State) (x : Reg) : State :=
  { s with regs := Vector.ofFn fun i => if i.val ≤ x.val then s.readByte (s.operandAddr i.val) else s.regs[i.val] }

/-- The three decimal digits of a byte, hundreds first (R193). -/
def decimalDigits (v : Byte) : List Byte := [v / 100#8, v / 10#8 % 10#8, v % 10#8]

end Sys2Proof.Machine
end

