-- ==== Sys2Proof/Machine/Flags.lean ====
section
/-!
DEFINITION. The results and the flags of the ALU family (R135 to R139), the flag register (R22), and the writing of a
result and a flag in one instruction (R141).
-/

namespace Sys2Proof.Machine

/-- The flag register, `x[15]` (R22). -/
def flagReg : Reg := 15

/-- `zext_8(f)`: "the value written is exactly 0 or 1" (R22). -/
def flagByte (f : Bool) : Byte := if f then 1#8 else 0#8

/-- The carry of `8xy4`: `1 if s > 255`, with `s = zext_9(a) + zext_9(b)` (R135). -/
def carryFlag (a b : Byte) : Bool := decide (255 < a.toNat + b.toNat)

/-- The flag of `8xy5`: `1 if a > b`, strict (R136, C1). -/
def subFlag (a b : Byte) : Bool := decide (b.toNat < a.toNat)

/-- The flag of `8xy7`: `1 if a < b`, strict (R138, C2). -/
def subnFlag (a b : Byte) : Bool := decide (a.toNat < b.toNat)

/-- The flag of `8xy6`: bit 0 of the operand before the shift (R137). -/
def shrFlag (v : Byte) : Bool := v.getLsbD 0

/-- The flag of `8xyE`: bit 7 of the operand before the shift (R139). -/
def shlFlag (v : Byte) : Bool := v.getLsbD 7

/-- `x[15] <- zext_8(f)`. -/
def State.writeFlag (s : State) (f : Bool) : State := s.writeReg flagReg (flagByte f)

/-- `WriteRF(X, r, f)` (R141): `x[X] <- r` and `x[15] <- zext_8(f)`; when X = 15 `VF_PRIORITY` says which survives. -/
def State.writeRF (s : State) (x : Reg) (r : Byte) (f : Bool) : State :=
  match s.params.vfPriority with
  | .flag => (s.writeReg x r).writeFlag f
  | .result => (s.writeFlag f).writeReg x r

end Sys2Proof.Machine
end

