-- ==== Sys2Proof/Machine/Alu.lean ====
section
/-!
DEFINITION. The register-to-register ALU family `8xy0 8xy1 8xy2 8xy3 8xy4 8xy5 8xy6 8xy7 8xyE` (R130 to R142). Both
operands are read at the start of the step (R18, R130).
-/

namespace Sys2Proof.Machine

/-- `8xy0`: `x[X] <- b` (R131). -/
def execLdReg (x y : Reg) (s : State) : Host.Outcome State Fault Refusal :=
  .next (s.writeReg x (s.readReg y)).advance

/-- `8xy1`: `x[X] <- a OR b`, no flag (R132). -/
def execOrReg (x y : Reg) (s : State) : Host.Outcome State Fault Refusal :=
  .next (s.writeReg x (s.readReg x ||| s.readReg y)).advance

/-- `8xy2`: `x[X] <- a AND b`, no flag (R133). -/
def execAndReg (x y : Reg) (s : State) : Host.Outcome State Fault Refusal :=
  .next (s.writeReg x (s.readReg x &&& s.readReg y)).advance

/-- `8xy3`: `x[X] <- a XOR b`, no flag (R134). -/
def execXorReg (x y : Reg) (s : State) : Host.Outcome State Fault Refusal :=
  .next (s.writeReg x (s.readReg x ^^^ s.readReg y)).advance

/-- `8xy4`: `r = (a + b) mod 256`, flag the carry (R135). -/
def execAddReg (x y : Reg) (s : State) : Host.Outcome State Fault Refusal :=
  .next (s.writeRF x (s.readReg x + s.readReg y) (carryFlag (s.readReg x) (s.readReg y))).advance

/-- `8xy5`: `r = (a - b) mod 256`, flag `a > b` (R136). -/
def execSub (x y : Reg) (s : State) : Host.Outcome State Fault Refusal :=
  .next (s.writeRF x (s.readReg x - s.readReg y) (subFlag (s.readReg x) (s.readReg y))).advance

/-- `8xy6`: `r = 0 ++ s[7:1]`, flag `s[0]` (R137). -/
def execShr (x y : Reg) (s : State) : Host.Outcome State Fault Refusal :=
  .next (s.writeRF x (s.shiftOperand x y >>> 1) (shrFlag (s.shiftOperand x y))).advance

/-- `8xy7`: `r = (b - a) mod 256`, flag `a < b` (R138). -/
def execSubn (x y : Reg) (s : State) : Host.Outcome State Fault Refusal :=
  .next (s.writeRF x (s.readReg y - s.readReg x) (subnFlag (s.readReg x) (s.readReg y))).advance

/-- `8xyE`: `r = s[6:0] ++ 0`, flag `s[7]` (R139). -/
def execShl (x y : Reg) (s : State) : Host.Outcome State Fault Refusal :=
  .next (s.writeRF x (s.shiftOperand x y <<< 1) (shlFlag (s.shiftOperand x y))).advance

end Sys2Proof.Machine
end

