-- ==== Sys2Proof/Decode.lean ====
section
/-!
DEFINITION. Decoding: from the 16-bit word (R85, R87) and from bytes (R55, R80) to an instruction or to a rejection by
name, the encoder written from the same table (R86), and the host's view of the decoder.
-/

namespace Sys2Proof

/-- What decoding a word gives: "one of the 33 instructions of rule R86 with its fields, or `Unsupported`" (R85). -/
inductive Decoded where
  /-- the word is this instruction -/
  | instr (i : Instr)
  /-- the word is none of the 33 instructions (R88); it is kept, since `FAULT_INSTR` records it (R202) -/
  | unsupported (w : Word)
  deriving DecidableEq, Repr

/-- What decoding a list of bytes gives. -/
inductive DecodedBytes where
  /-- the first two bytes are this instruction; `rest` follows it -/
  | instr (i : Instr) (rest : List Byte)
  /-- the first two bytes are no instruction (R88) -/
  | unsupported (w : Word) (rest : List Byte)
  /-- fewer than the two bytes an instruction has (R80) -/
  | truncated (bytes : List Byte)
  deriving DecidableEq, Repr

/-! ### Fields (R82) -/

/-- `i3 = w[15:12]`, the family. -/
def fieldI3 (w : Word) : BitVec 4 := w.extractLsb' 12 4
/-- `X = w[11:8]`. -/
def fieldX (w : Word) : Reg := (w.extractLsb' 8 4).toFin
/-- `Y = w[7:4]`. -/
def fieldY (w : Word) : Reg := (w.extractLsb' 4 4).toFin
/-- `N = w[3:0]`. -/
def fieldN (w : Word) : BitVec 4 := w.extractLsb' 0 4
/-- `KK = w[7:0]`. -/
def fieldKK (w : Word) : Byte := w.extractLsb' 0 8
/-- `NNN = w[11:0]`. -/
def fieldNNN (w : Word) : BitVec 12 := w.extractLsb' 0 12

/-! ### Decode (R85, R87) -/

/-- Family 0, decided on the whole word (R87). -/
def decodeFamily0 (w : Word) : Decoded :=
  if w = 0x00E0#16 then .instr .cls
  else if w = 0x00EE#16 then .instr .ret
  else .unsupported w

/-- Family 8, decided on the low nibble (R87). -/
def decodeFamily8 (w : Word) : Decoded :=
  match (fieldN w).toNat with
  | 0x0 => .instr (.ldReg (fieldX w) (fieldY w))
  | 0x1 => .instr (.orReg (fieldX w) (fieldY w))
  | 0x2 => .instr (.andReg (fieldX w) (fieldY w))
  | 0x3 => .instr (.xorReg (fieldX w) (fieldY w))
  | 0x4 => .instr (.addReg (fieldX w) (fieldY w))
  | 0x5 => .instr (.sub (fieldX w) (fieldY w))
  | 0x6 => .instr (.shr (fieldX w) (fieldY w))
  | 0x7 => .instr (.subn (fieldX w) (fieldY w))
  | 0xE => .instr (.shl (fieldX w) (fieldY w))
  | _ => .unsupported w

/-- Family E, decided on `KK` (R87). -/
def decodeFamilyE (w : Word) : Decoded :=
  if fieldKK w = 0x9E#8 then .instr (.skp (fieldX w))
  else if fieldKK w = 0xA1#8 then .instr (.sknp (fieldX w))
  else .unsupported w

/-- Family F, decided on `KK` (R87). -/
def decodeFamilyF (w : Word) : Decoded :=
  if fieldKK w = 0x07#8 then .instr (.ldVxDt (fieldX w))
  else if fieldKK w = 0x0A#8 then .instr (.ldVxK (fieldX w))
  else if fieldKK w = 0x15#8 then .instr (.ldDtVx (fieldX w))
  else if fieldKK w = 0x18#8 then .instr (.ldStVx (fieldX w))
  else if fieldKK w = 0x1E#8 then .instr (.addI (fieldX w))
  else if fieldKK w = 0x29#8 then .instr (.ldF (fieldX w))
  else if fieldKK w = 0x33#8 then .instr (.ldB (fieldX w))
  else if fieldKK w = 0x55#8 then .instr (.storeRegs (fieldX w))
  else if fieldKK w = 0x65#8 then .instr (.loadRegs (fieldX w))
  else .unsupported w

/-- Decode, "a function of the 16-bit word alone, total on all 65536 values" (R85), as the case on `i3` of R87.
Families 5 and 9 also require `i0 = 0` (R85, C3); family B is empty. -/
def decodeWord (w : Word) : Decoded :=
  match (fieldI3 w).toNat with
  | 0x0 => decodeFamily0 w
  | 0x1 => .instr (.jp (fieldNNN w))
  | 0x2 => .instr (.call (fieldNNN w))
  | 0x3 => .instr (.seImm (fieldX w) (fieldKK w))
  | 0x4 => .instr (.sneImm (fieldX w) (fieldKK w))
  | 0x5 => if fieldN w = 0#4 then .instr (.seReg (fieldX w) (fieldY w)) else .unsupported w
  | 0x6 => .instr (.ldImm (fieldX w) (fieldKK w))
  | 0x7 => .instr (.addImm (fieldX w) (fieldKK w))
  | 0x8 => decodeFamily8 w
  | 0x9 => if fieldN w = 0#4 then .instr (.sneReg (fieldX w) (fieldY w)) else .unsupported w
  | 0xA => .instr (.ldI (fieldNNN w))
  | 0xC => .instr (.rnd (fieldX w) (fieldKK w))
  | 0xD => .instr (.drw (fieldX w) (fieldY w) (fieldN w).toNat)
  | 0xE => decodeFamilyE w
  | 0xF => decodeFamilyF w
  | _ => .unsupported w

/-- The word of two bytes in fetch order: "the byte at the lower address is `w[15:8]`" (R55). -/
def wordOfBytes (hi lo : Byte) : Word := hi ++ lo

/-- The high byte of a word, which lies at the lower address (R55). -/
def highByte (w : Word) : Byte := w.extractLsb' 8 8
/-- The low byte of a word, which lies at the higher address (R55). -/
def lowByte (w : Word) : Byte := w.extractLsb' 0 8

/-- Decode from bytes: an instruction is exactly two bytes, most significant first (R80). -/
def decodeBytes : List Byte → DecodedBytes
  | hi :: lo :: rest =>
    match decodeWord (wordOfBytes hi lo) with
    | .instr i => .instr i rest
    | .unsupported w => .unsupported w rest
  | bytes => .truncated bytes

/-! ### Encode (R81, R84, R86) -/

/-- The nibble of a register number. -/
def nibble (x : Reg) : BitVec 4 := BitVec.ofNat 4 x.val

/-- Format `NNN` of R81. -/
def formatNNN (op : BitVec 4) (nnn : BitVec 12) : Word := op ++ nnn
/-- Format `XKK` of R81. -/
def formatXKK (op : BitVec 4) (x : Reg) (kk : Byte) : Word := op ++ nibble x ++ kk
/-- Formats `XY` (with a sub-opcode) and `XYN` (with a row count) of R81. -/
def formatXYN (op : BitVec 4) (x y : Reg) (n : BitVec 4) : Word := op ++ nibble x ++ nibble y ++ n
/-- Format `X` of R81, with the sub-opcode in the low byte. -/
def formatX (op : BitVec 4) (x : Reg) (sub : Byte) : Word := op ++ nibble x ++ sub

/-- The word of a well-formed instruction, from the patterns of R86: "`opcode ++ X ++ Y ++ sub` and the like" (R84). -/
def encode : Instr → Word
  | .cls => 0x00E0#16
  | .ret => 0x00EE#16
  | .jp nnn => formatNNN 0x1#4 nnn
  | .call nnn => formatNNN 0x2#4 nnn
  | .seImm x kk => formatXKK 0x3#4 x kk
  | .sneImm x kk => formatXKK 0x4#4 x kk
  | .seReg x y => formatXYN 0x5#4 x y 0x0#4
  | .ldImm x kk => formatXKK 0x6#4 x kk
  | .addImm x kk => formatXKK 0x7#4 x kk
  | .ldReg x y => formatXYN 0x8#4 x y 0x0#4
  | .orReg x y => formatXYN 0x8#4 x y 0x1#4
  | .andReg x y => formatXYN 0x8#4 x y 0x2#4
  | .xorReg x y => formatXYN 0x8#4 x y 0x3#4
  | .addReg x y => formatXYN 0x8#4 x y 0x4#4
  | .sub x y => formatXYN 0x8#4 x y 0x5#4
  | .shr x y => formatXYN 0x8#4 x y 0x6#4
  | .subn x y => formatXYN 0x8#4 x y 0x7#4
  | .shl x y => formatXYN 0x8#4 x y 0xE#4
  | .sneReg x y => formatXYN 0x9#4 x y 0x0#4
  | .ldI nnn => formatNNN 0xA#4 nnn
  | .rnd x kk => formatXKK 0xC#4 x kk
  | .drw x y n => formatXYN 0xD#4 x y (BitVec.ofNat 4 n)
  | .skp x => formatX 0xE#4 x 0x9E#8
  | .sknp x => formatX 0xE#4 x 0xA1#8
  | .ldVxDt x => formatX 0xF#4 x 0x07#8
  | .ldVxK x => formatX 0xF#4 x 0x0A#8
  | .ldDtVx x => formatX 0xF#4 x 0x15#8
  | .ldStVx x => formatX 0xF#4 x 0x18#8
  | .addI x => formatX 0xF#4 x 0x1E#8
  | .ldF x => formatX 0xF#4 x 0x29#8
  | .ldB x => formatX 0xF#4 x 0x33#8
  | .storeRegs x => formatX 0xF#4 x 0x55#8
  | .loadRegs x => formatX 0xF#4 x 0x65#8

/-- The bytes of an instruction in memory order (R55, R80). -/
def encodeBytes (i : Instr) : List Byte := [highByte (encode i), lowByte (encode i)]

/-! ### The opcode table as data (R86) -/

/-- The mask and match columns of R86 for the row an instruction belongs to. -/
def tableRow : Instr → Word × Word
  | .cls => (0xFFFF#16, 0x00E0#16)
  | .ret => (0xFFFF#16, 0x00EE#16)
  | .jp _ => (0xF000#16, 0x1000#16)
  | .call _ => (0xF000#16, 0x2000#16)
  | .seImm _ _ => (0xF000#16, 0x3000#16)
  | .sneImm _ _ => (0xF000#16, 0x4000#16)
  | .seReg _ _ => (0xF00F#16, 0x5000#16)
  | .ldImm _ _ => (0xF000#16, 0x6000#16)
  | .addImm _ _ => (0xF000#16, 0x7000#16)
  | .ldReg _ _ => (0xF00F#16, 0x8000#16)
  | .orReg _ _ => (0xF00F#16, 0x8001#16)
  | .andReg _ _ => (0xF00F#16, 0x8002#16)
  | .xorReg _ _ => (0xF00F#16, 0x8003#16)
  | .addReg _ _ => (0xF00F#16, 0x8004#16)
  | .sub _ _ => (0xF00F#16, 0x8005#16)
  | .shr _ _ => (0xF00F#16, 0x8006#16)
  | .subn _ _ => (0xF00F#16, 0x8007#16)
  | .shl _ _ => (0xF00F#16, 0x800E#16)
  | .sneReg _ _ => (0xF00F#16, 0x9000#16)
  | .ldI _ => (0xF000#16, 0xA000#16)
  | .rnd _ _ => (0xF000#16, 0xC000#16)
  | .drw _ _ _ => (0xF000#16, 0xD000#16)
  | .skp _ => (0xF0FF#16, 0xE09E#16)
  | .sknp _ => (0xF0FF#16, 0xE0A1#16)
  | .ldVxDt _ => (0xF0FF#16, 0xF007#16)
  | .ldVxK _ => (0xF0FF#16, 0xF00A#16)
  | .ldDtVx _ => (0xF0FF#16, 0xF015#16)
  | .ldStVx _ => (0xF0FF#16, 0xF018#16)
  | .addI _ => (0xF0FF#16, 0xF01E#16)
  | .ldF _ => (0xF0FF#16, 0xF029#16)
  | .ldB _ => (0xF0FF#16, 0xF033#16)
  | .storeRegs _ => (0xF0FF#16, 0xF055#16)
  | .loadRegs _ => (0xF0FF#16, 0xF065#16)

/-- One instruction of each row of R86, operands zero: the table's rows in order. -/
def rowRepresentatives : List Instr :=
  [.cls, .ret, .jp 0, .call 0, .seImm 0 0, .sneImm 0 0, .seReg 0 0, .ldImm 0 0, .addImm 0 0, .ldReg 0 0, .orReg 0 0] ++
  [.andReg 0 0, .xorReg 0 0, .addReg 0 0, .sub 0 0, .shr 0 0, .subn 0 0, .shl 0 0, .sneReg 0 0, .ldI 0, .rnd 0 0] ++
  [.drw 0 0 0, .skp 0, .sknp 0, .ldVxDt 0, .ldVxK 0, .ldDtVx 0, .ldStVx 0, .addI 0, .ldF 0, .ldB 0] ++
  [.storeRegs 0, .loadRegs 0]

/-- The opcode map of R86: the 33 pairs (mask, match). -/
def opcodeTable : List (Word × Word) := rowRepresentatives.map tableRow

/-- "the row is selected when `w AND mask = match`" (R86). -/
def rowSelects (row : Word × Word) (w : Word) : Bool := w &&& row.1 == row.2

/-! ### The host's view of the decoder -/

/-- The instruction the decoder reads from an instruction whose bits are `w`, numbered as spec/opcode_table.json numbers
them; bits above `nbits` are 0. The word is laid out as memory holds it, high byte first (R55). -/
def decodeTableWord (nbits w : Nat) : Option Instr :=
  let word : Word := BitVec.ofNat 16 (w % 2 ^ nbits)
  match decodeBytes [highByte word, lowByte word] with
  | .instr i _ => some i
  | .unsupported _ _ => none
  | .truncated _ => none

end Sys2Proof
end

