-- ==== Sys2Proof/Machine/Control.lean ====
section
/-!
DEFINITION. Control transfer: `1nnn 2nnn 00EE 3xkk 4xkk 5xy0 9xy0` (R100 to R107).
-/

namespace Sys2Proof.Machine

/-- `1nnn`: `pc <- NNN` (R101). -/
def execJp (nnn : BitVec 12) (s : State) : Host.Outcome State Fault Refusal :=
  .next (s.setPc (address nnn))

/-- `2nnn`: fatal when `SP = 16`; else push `next`, `pc <- NNN` (R102, R203). `FAULT_INSTR` is the word of the call. -/
def execCall (nnn : BitVec 12) (s : State) : Host.Outcome State Fault Refusal :=
  if h : s.sp.val < 16 then .next ((s.push s.nextPc h).setPc (address nnn))
  else .next (s.raiseFatal .stackOverflow (encode (.call nnn)))

/-- `00EE`: fatal when `SP = 0`; else `pc <- STACK[SP-1] mod 4096; SP <- SP - 1` (R103, R204). -/
def execRet (s : State) : Host.Outcome State Fault Refusal :=
  if h : 0 < s.sp.val then .next (s.pop.setPc (s.top h))
  else .next (s.raiseFatal .stackUnderflow (encode .ret))

/-- `3xkk`: `if x[X] = KK then pc <- skip else pc <- next` (R104). -/
def execSeImm (x : Reg) (kk : Byte) (s : State) : Host.Outcome State Fault Refusal :=
  .next (s.skipIf (s.readReg x == kk))

/-- `4xkk`: `if x[X] != KK then pc <- skip else pc <- next` (R105). -/
def execSneImm (x : Reg) (kk : Byte) (s : State) : Host.Outcome State Fault Refusal :=
  .next (s.skipIf (s.readReg x != kk))

/-- `5xy0`: `if x[X] = x[Y] then pc <- skip else pc <- next` (R106). -/
def execSeReg (x y : Reg) (s : State) : Host.Outcome State Fault Refusal :=
  .next (s.skipIf (s.readReg x == s.readReg y))

/-- `9xy0`: `if x[X] != x[Y] then pc <- skip else pc <- next` (R107). -/
def execSneReg (x y : Reg) (s : State) : Host.Outcome State Fault Refusal :=
  .next (s.skipIf (s.readReg x != s.readReg y))

end Sys2Proof.Machine
end

