-- ==== Sys2Proof/Machine/Display.lean ====
section
/-!
DEFINITION. Framebuffer clear and XOR sprite draw: `00E0 Dxyn` (R150 to R157). The draw is the nested loop of R153.
-/

namespace Sys2Proof.Machine

/-- What the loop of R153 carries: `FB` and `hit`. -/
structure Drawing where
  /-- `FB` so far -/
  fb  : Framebuffer
  /-- `hit` so far -/
  hit : Bool
  deriving DecidableEq, Repr

/-- The body of the loop of R153 for the sprite bit `bit` at column `cx`, row `cy`: "if cx < 64 and cy < 32", XOR the
pixel and record a collision; else nothing ("clipped, not wrapped", R154). -/
def drawPixel (d : Drawing) (bit : Bool) (cx cy : Nat) : Drawing :=
  if cx < 64 ∧ cy < 32 then
    { fb := setPixel d.fb cy cx (bit ^^ pixel d.fb cy cx), hit := d.hit || (bit && pixel d.fb cy cx) }
  else d

/-- One sprite row: "for col in 0 .. 7", bit `7 - col` at column `x0 + col` (R150, R153). -/
def drawRow (d : Drawing) (byte : Byte) (x0 cy : Nat) : Drawing :=
  (List.range 8).foldl (fun acc col => drawPixel acc (byte.getLsbD (7 - col)) (x0 + col) cy) d

/-- The sprite rows from row `cy` down (R153). -/
def drawRows (d : Drawing) (x0 cy : Nat) : List Byte → Drawing
  | [] => d
  | byte :: rest => drawRows (drawRow d byte x0 cy) x0 (cy + 1) rest

/-- The sprite of `Dxyn` drawn on the state's framebuffer: `N` bytes from `I`, at `(x[X], x[Y])`, coordinates not reduced
(R153, R154). -/
def State.drawSprite (s : State) (x y : Reg) (n : Nat) : Drawing :=
  drawRows ⟨s.fb, false⟩ (s.readReg x).toNat (s.readReg y).toNat (s.readBytes (s.operandAddr 0) n)

/-- `00E0`: every pixel off (R151). -/
def execCls (s : State) : Host.Outcome State Fault Refusal :=
  .next (s.setFb clearFramebuffer).advance

/-- `Dxyn`: draw, then `x[15] <- zext_8(hit)` (R153). -/
def execDrw (x y : Reg) (n : Nat) (s : State) : Host.Outcome State Fault Refusal :=
  .next ((s.setFb (s.drawSprite x y n).fb).writeFlag (s.drawSprite x y n).hit).advance

end Sys2Proof.Machine
end

