-- ==== Sys2Proof/Machine/Immediate.lean ====
section
/-!
DEFINITION. Immediate load, immediate add, index load, random: `6xkk 7xkk Annn Cxkk` (R120 to R123).
-/

namespace Sys2Proof.Machine

/-- `6xkk`: `x[X] <- KK` (R120). -/
def execLdImm (x : Reg) (kk : Byte) (s : State) : Host.Outcome State Fault Refusal :=
  .next (s.writeReg x kk).advance

/-- `7xkk`: `x[X] <- (x[X] + KK) mod 256`, no flag (R121). -/
def execAddImm (x : Reg) (kk : Byte) (s : State) : Host.Outcome State Fault Refusal :=
  .next (s.writeReg x (s.readReg x + kk)).advance

/-- `Annn`: `I <- zext_16(NNN)` (R122). -/
def execLdI (nnn : BitVec 12) (s : State) : Host.Outcome State Fault Refusal :=
  .next (s.setIndex (address nnn)).advance

/-- `Cxkk`: `x[X] <- Rand() AND KK` (R123); one draw is used. -/
def execRnd (x : Reg) (kk : Byte) (s : State) : Host.Outcome State Fault Refusal :=
  .next (s.countDraw.writeReg x (s.rand &&& kk)).advance

end Sys2Proof.Machine
end

