-- ==== Sys2Proof/Machine/IndexMemory.lean ====
section
/-!
DEFINITION. Index register arithmetic, font address, BCD, register store and load: `Fx1E Fx29 Fx33 Fx55 Fx65` (R190 to
R195).
-/

namespace Sys2Proof.Machine

/-- `Fx1E`: `I <- (I + zext_16(x[X])) mod 4096`, no flag (R191). -/
def execAddI (x : Reg) (s : State) : Host.Outcome State Fault Refusal :=
  .next (s.setIndex (s.index + s.zextReg x)).advance

/-- `Fx29`: `I <- zext_16(x[X]) * 5` (R192). -/
def execLdF (x : Reg) (s : State) : Host.Outcome State Fault Refusal :=
  .next (s.setIndex (s.zextReg x * 5#16)).advance

/-- `Fx33`: the three decimal digits at `I`, `I + 1`, `I + 2` (R193). -/
def execLdB (x : Reg) (s : State) : Host.Outcome State Fault Refusal :=
  .next (s.writeBytes (s.operandAddr 0) (decimalDigits (s.readReg x))).advance

/-- `I <- (I + X + 1) mod 4096`: how `Fx55` and `Fx65` move `I` past the range (R194, R195). -/
def State.indexPast (s : State) (x : Reg) : State := s.setIndex (s.index + BitVec.ofNat 16 (x.val + 1))

/-- `Fx55`: `x[0]` to `x[X]` at `I` to `I + X`; `I` moves past them (R194). -/
def execStoreRegs (x : Reg) (s : State) : Host.Outcome State Fault Refusal :=
  .next ((s.writeBytes (s.operandAddr 0) (s.regsUpTo x)).indexPast x).advance

/-- `Fx65`: `x[0]` to `x[X]` from `I` to `I + X`; `I` moves past them (R195). -/
def execLoadRegs (x : Reg) (s : State) : Host.Outcome State Fault Refusal :=
  .next ((s.loadUpTo x).indexPast x).advance

end Sys2Proof.Machine
end

