-- ==== Sys2Proof/Machine/Keyboard.lean ====
section
/-!
DEFINITION. Keyboard skips and key-wait: `Ex9E ExA1 Fx0A` (R170 to R174). All queries of one instruction see the one
sample of `keys` the state holds (R12).
-/

namespace Sys2Proof.Machine

/-- `Ex9E`: `if Key(x[X]) then pc <- skip else pc <- next` (R171). -/
def execSkp (x : Reg) (s : State) : Host.Outcome State Fault Refusal :=
  .next ((s.afterKey (s.readReg x)).skipIf (s.key (s.readReg x)))

/-- `ExA1`: `if not Key(x[X]) then pc <- skip else pc <- next` (R172). -/
def execSknp (x : Reg) (s : State) : Host.Outcome State Fault Refusal :=
  .next ((s.afterKey (s.readReg x)).skipIf (!s.key (s.readReg x)))

/-- `Fx0A`: the lowest held key into `x[X]`; with no key held, outcome `AwaitingInput`, "no state change at all" (R173). -/
def execLdVxK (x : Reg) (s : State) : Host.Outcome State Fault Refusal :=
  match lowestKey s.keys with
  | some k => .next (s.writeReg x (BitVec.ofNat 8 k)).advance
  | none => .next s

end Sys2Proof.Machine
end

