-- ==== Sys2Proof/Machine/Timers.lean ====
section
/-!
DEFINITION. The timer instructions `Fx07 Fx15 Fx18` (R180 to R182). The countdown is the `Tick` event of
Machine/Events.lean (R183).
-/

namespace Sys2Proof.Machine

/-- `Fx07`: `x[X] <- DT` (R180). -/
def execLdVxDt (x : Reg) (s : State) : Host.Outcome State Fault Refusal :=
  .next (s.writeReg x s.dt).advance

/-- `Fx15`: `DT <- x[X]` (R181). -/
def execLdDtVx (x : Reg) (s : State) : Host.Outcome State Fault Refusal :=
  .next (s.setDt (s.readReg x)).advance

/-- `Fx18`: `ST <- x[X]` (R182). -/
def execLdStVx (x : Reg) (s : State) : Host.Outcome State Fault Refusal :=
  .next (s.setSt (s.readReg x)).advance

end Sys2Proof.Machine
end

