-- ==== Sys2Proof/Machine/Cycle.lean ====
section
/-!
DEFINITION. The execution cycle of one `Step` (R90), its outcome (R9), a batch of steps (R8), and the ports the host reads
after it (R33, R208).
-/

namespace Sys2Proof.Machine

/-- `w <- MemRead(pc, 2) = MEM[pc] ++ MEM[(pc+1) mod 4096]` (R55, R57). -/
def State.fetch (s : State) : Word := wordOfBytes (s.readByte s.pc.toNat) (s.readByte (s.pc.toNat + 1))

/-- Steps (2) to (6) of R90, with `RUN = RUNNING`: fetch, decode, `raise Fatal(UNSUPPORTED_INSTRUCTION)` or execute. -/
def State.cycle (s : State) : Host.Outcome State Fault Refusal :=
  match decodeWord s.fetch with
  | .instr i => exec i s
  | .unsupported w => .next (s.raiseFatal .unsupportedInstruction w)

/-- The `Step` event (R90): "When `RUN = HALTED`, `Step` does nothing". -/
def State.stepEvent (s : State) : Host.Outcome State Fault Refusal :=
  match s.run with
  | .running => s.cycle
  | .halted => .next s

/-- The outcome of a `Step` (R9), an output of the block and no state. -/
inductive StepOutcome where
  /-- one instruction was executed and retired -/
  | advanced
  /-- the instruction at `pc` was `Fx0A`, no key was held, and no state changed -/
  | awaitingInput
  /-- a fatal condition was raised, with this code of `FAULT_CAUSE` -/
  | fatal (code : BitVec 3)
  /-- the block was already halted -/
  | halted
  deriving DecidableEq, Repr

/-- Whether the instruction is the key-wait `Fx0A`, the one instruction that can wait (R174). -/
def isKeyWait : Instr → Bool
  | .cls => false
  | .ret => false
  | .jp _ => false
  | .call _ => false
  | .seImm _ _ => false
  | .sneImm _ _ => false
  | .seReg _ _ => false
  | .ldImm _ _ => false
  | .addImm _ _ => false
  | .ldReg _ _ => false
  | .orReg _ _ => false
  | .andReg _ _ => false
  | .xorReg _ _ => false
  | .addReg _ _ => false
  | .sub _ _ => false
  | .shr _ _ => false
  | .subn _ _ => false
  | .shl _ _ => false
  | .sneReg _ _ => false
  | .ldI _ => false
  | .rnd _ _ => false
  | .drw _ _ _ => false
  | .skp _ => false
  | .sknp _ => false
  | .ldVxDt _ => false
  | .ldVxK _ => true
  | .ldDtVx _ => false
  | .ldStVx _ => false
  | .addI _ => false
  | .ldF _ => false
  | .ldB _ => false
  | .storeRegs _ => false
  | .loadRegs _ => false

/-- The outcome of executing `i` from `s` with `RUN = RUNNING`, when the state after it is `t`. -/
def execOutcome (i : Instr) (s t : State) : StepOutcome :=
  if t.run = .halted then .fatal t.faultCause
  else if isKeyWait i ∧ lowestKey s.keys = none then .awaitingInput
  else .advanced

/-- The outcome of a `Step` issued in state `s` (R9). A stop without a next state has none of the four; there is no such
stop while every instruction has its meaning. -/
def State.stepOutcome (s : State) : Option StepOutcome :=
  match s.run with
  | .halted => some .halted
  | .running =>
    match decodeWord s.fetch with
    | .unsupported _ => some (.fatal Cause.unsupportedInstruction.code)
    | .instr i =>
      match exec i s with
      | .next t => some (execOutcome i s t)
      | .fault _ => none
      | .refused _ => none

/-- `executeBatch(n)`: up to `n` `Step` events, stopping early at the first whose outcome is not `Advanced` (R8). -/
def State.executeBatch : Nat → State → Host.Outcome State Fault Refusal
  | 0, s => .next s
  | n + 1, s =>
    match s.stepEvent with
    | .next t => if s.stepOutcome = some .advanced then State.executeBatch n t else .next t
    | .fault r => .fault r
    | .refused r => .refused r

/-- What the host can read at the diagnostic port (R208). -/
structure Diagnostic where
  /-- the condition, and from it the reason string of R201 -/
  cause      : Option Cause
  /-- `FAULT_INSTR` -/
  faultInstr : Word
  /-- `x[0]` to `x[15]` -/
  regs       : Vector Byte 16
  /-- `pc` -/
  pc         : Word
  /-- `I` -/
  index      : Word
  /-- the framebuffer, through its read port (R33) -/
  fbOut      : BitVec 2048
  deriving DecidableEq, Repr

/-- The diagnostic port: readable "While `RUN = HALTED`" (R208). -/
def State.diagnostic (s : State) : Option Diagnostic :=
  match s.run with
  | .running => none
  | .halted => some ⟨Cause.ofCode s.faultCause, s.faultInstr, s.regs, s.pc, s.index, s.fbOut⟩

end Sys2Proof.Machine
end

