-- ==== Sys2Proof/Machine/Events.lean ====
section
/-!
DEFINITION. The host's events (R7, R11): `Reset`, `Load`, `Step`, `Tick`, and a change of `keys`. Each is one atomic
transition (R10).
-/

namespace Sys2Proof.Machine

/-- The `Reset` event (R240): every piece of state of R36 at its value, "whatever the state was". What the spec says is not
the block's state stays: `keys` ("It does not touch `keys` or `rnd`"), the parameters, the draws, the host's further events. -/
def State.resetEvent (s : State) : State :=
  { State.reset with keys := s.keys, params := s.params, draws := s.draws, schedule := s.schedule }

/-- The `Tick` event (R183): each timer that is not zero counts down by one; nothing while halted (R210). -/
def State.tickEvent (s : State) : State :=
  match s.run with
  | .running => (s.setDt (countDown s.dt)).setSt (countDown s.st)
  | .halted => s

/-- The `Load(bytes)` event (R244): fatal when `len > 3584`; else the bytes from `0x200` on; nothing while halted (R210). -/
def State.loadEvent (s : State) (bytes : List Byte) : State :=
  match s.run with
  | .running => if 3584 < bytes.length then s.raiseFatal .loadError 0#16 else s.writeBytes 0x200 bytes
  | .halted => s

/-- The host changes `keys` (R7, R11). -/
def State.keysEvent (s : State) (keys : BitVec 16) : State := { s with keys := keys }

/-- One event of the host. -/
def State.hostEvent (s : State) : HostEvent → Host.Outcome State Fault Refusal
  | .reset => .next s.resetEvent
  | .load bytes => .next (s.loadEvent bytes)
  | .step => s.stepEvent
  | .tick => .next s.tickEvent
  | .setKeys keys => .next (s.keysEvent keys)

/-- The state with the events still to come. -/
def State.setSchedule (s : State) (evs : List HostEvent) : State := { s with schedule := evs }

/-- The machine's next move: the host's next event; where the schedule names none, the host issues `Step` (R11). -/
def State.move (s : State) : Host.Outcome State Fault Refusal :=
  match s.schedule with
  | [] => s.stepEvent
  | ev :: rest => (s.setSchedule rest).hostEvent ev

/-- The state with the word `w` at `pc`, high byte first (R55), and the next move a `Step` that fetches it. -/
def State.placeWord (s : State) (w : Word) : State :=
  { (s.writeByte s.pc.toNat (highByte w)).writeByte (s.pc.toNat + 1) (lowByte w) with run := .running, schedule := [] }

end Sys2Proof.Machine
end

