-- ==== Sys2Proof/Machine/Step.lean ====
section
/-!
DEFINITION. One move of the machine, and the placing of an instruction where the next move fetches it.
-/

namespace Sys2Proof.Machine

/-- One move (R11, R90). -/
def step : State → Host.Outcome State Fault Refusal := fun s => s.move

/-- `s` with the instruction of bits `w` (bits above `nbits` zero) where `step` fetches its next instruction (log entry 7). -/
def State.withFetchWord (s : State) (nbits w : Nat) : State := s.placeWord (BitVec.ofNat 16 (w % 2 ^ nbits))

end Sys2Proof.Machine
end

