-- ==== Sys2Proof/Safety.lean ====
section
/-!
DEFINITION. What counts as a legal state and a safe run, and the words claims are stated in: what two states share, where
`pc` goes, what a result with a flag leaves, which pixel a sprite bit falls on.
-/

namespace Sys2Proof.Machine

/-- A run is safe while `RUN = RUNNING`: "every claim of correct termination takes `RUN = RUNNING` as part of its
postcondition" (R210). -/
def State.safe (s : State) : Bool := decide (s.run = .running)

/-- The invariant of every reachable state. `SP <= 16` (R31) holds by the type of `sp`. -/
structure State.Inv (s : State) : Prop where
  /-- "`0 <= pc <= 0xFFF` is an invariant of every reachable state" (R24) -/
  pcRange      : s.pc.toNat < 4096
  /-- "`I[15:12]` is always zero" (R27) -/
  indexRange   : s.index.toNat < 4096
  /-- every stack entry is a pushed `next`, or 0 (R30, R36) -/
  stackRange   : ∀ k, (h : k < 16) → s.stack[k].toNat < 4096
  /-- memory is in its canonical form -/
  memoryForm   : Memory.wf s.params.font s.mem
  /-- while running no cause is latched (R34) -/
  latchRunning : s.run = .running → s.faultCause = 0#3 ∧ s.faultInstr = 0#16
  /-- while halted the cause is one of R201; "Codes 5 to 7 are never produced" -/
  latchHalted  : s.run = .halted → ∃ c : Cause, s.faultCause = c.code

/-! ### What two states share -/

/-- The parts of the state other than the general registers and `pc`. -/
inductive Part where
  /-- `MEM`, every byte of it -/
  | memory
  /-- `I` -/
  | index
  /-- `SP` and `STACK` -/
  | stack
  /-- `DT` -/
  | delayTimer
  /-- `ST` -/
  | soundTimer
  /-- `FB` -/
  | framebuffer
  /-- `RUN`, `FAULT_CAUSE`, `FAULT_INSTR` -/
  | latch
  /-- the host's input `keys` -/
  | keys
  /-- the parameters of R6 -/
  | params
  /-- the count of free values drawn -/
  | draws
  /-- the host's events still to come -/
  | schedule
  deriving DecidableEq, Repr

/-- The part reads the same in both states. -/
def Part.same : Part → State → State → Prop
  | .memory, s, t => ∀ a, t.readByte a = s.readByte a
  | .index, s, t => t.index = s.index
  | .stack, s, t => t.sp = s.sp ∧ t.stack = s.stack
  | .delayTimer, s, t => t.dt = s.dt
  | .soundTimer, s, t => t.st = s.st
  | .framebuffer, s, t => t.fb = s.fb
  | .latch, s, t => t.run = s.run ∧ t.faultCause = s.faultCause ∧ t.faultInstr = s.faultInstr
  | .keys, s, t => t.keys = s.keys
  | .params, s, t => t.params = s.params
  | .draws, s, t => t.draws = s.draws
  | .schedule, s, t => t.schedule = s.schedule

/-- From `s` to `t` no part changed but those listed. -/
def onlyChanges (s t : State) (parts : List Part) : Prop := ∀ p : Part, p ∉ parts → p.same s t

/-- From `s` to `t` no general register changed but those listed. -/
def onlyWrites (s t : State) (regs : List Reg) : Prop := ∀ r : Reg, r ∉ regs → t.readReg r = s.readReg r

/-- From `s` to `t` every byte of memory outside the `n` bytes stored from address `a` on reads as before. -/
def memoryOutside (s t : State) (a n : Nat) : Prop :=
  ∀ b, (∀ k, k < n → b % 4096 ≠ (a + k) % 4096) → t.readByte b = s.readByte b

/-! ### Where `pc` goes (R25, R26) -/

/-- `pc <- next`, in integers. -/
def goesOn (s t : State) : Prop := t.pc.toNat = (s.pc.toNat + 2) % 4096

/-- `pc <- skip` when `c` holds, `pc <- next` otherwise, in integers. -/
def skipsWhen (c : Prop) (s t : State) : Prop :=
  (c → t.pc.toNat = (s.pc.toNat + 4) % 4096) ∧ (¬c → t.pc.toNat = (s.pc.toNat + 2) % 4096)

/-! ### Results with a flag (R141) -/

/-- The flag's value: 1 when `f` holds, 0 otherwise. -/
def isFlag (v : Byte) (f : Prop) : Prop := (f → v = 1#8) ∧ (¬f → v = 0#8)

/-- `WriteRF(X, r, f)` seen from the state after it: the result in `x[X]` and the flag in `x[15]`, and for X = 15 the one
`VF_PRIORITY` names. -/
def resultAndFlag (s t : State) (x : Reg) (r : Byte) (f : Prop) : Prop :=
  (x ≠ 15 → t.readReg x = r ∧ isFlag (t.readReg 15) f) ∧
  (x = 15 → s.params.vfPriority = .flag → isFlag (t.readReg 15) f) ∧
  (x = 15 → s.params.vfPriority = .result → t.readReg 15 = r)

/-! ### Sprites (R150, R153) -/

/-- The sprite bit of `Dxyn` that falls on row `r`, column `c`: bit `7 - (c - x0)` of the byte at `I + (r - y0)`, where the
sprite covers that place; no bit elsewhere. Coordinates are integers and are not reduced. -/
def spriteBit (s : State) (x y : Reg) (n r c : Nat) : Bool :=
  let x0 := (s.readReg x).toNat
  let y0 := (s.readReg y).toNat
  decide (y0 ≤ r ∧ r < y0 + n ∧ x0 ≤ c ∧ c < x0 + 8) && (s.readByte (s.operandAddr (r - y0))).getLsbD (7 - (c - x0))

/-- "at least one pixel that was actually visited (inside the grid) had `s = 1` and `c = 1`" (R155). -/
def collides (s : State) (x y : Reg) (n : Nat) : Prop :=
  ∃ r c, r < 32 ∧ c < 64 ∧ spriteBit s x y n r c = true ∧ pixel s.fb r c = true

/-! ### Who writes what (R21, R23) -/

/-- Whether an instruction can write register `r`: as its destination `x[X]`, as the flag register, or as one of the
registers `Fx65` loads (R21, R23). -/
def writesReg : Instr → Reg → Bool
  | .cls, _ => false
  | .ret, _ => false
  | .jp _, _ => false
  | .call _, _ => false
  | .seImm _ _, _ => false
  | .sneImm _ _, _ => false
  | .seReg _ _, _ => false
  | .ldImm x _, r => r == x
  | .addImm x _, r => r == x
  | .ldReg x _, r => r == x
  | .orReg x _, r => r == x
  | .andReg x _, r => r == x
  | .xorReg x _, r => r == x
  | .addReg x _, r => r == x || r == 15
  | .sub x _, r => r == x || r == 15
  | .shr x _, r => r == x || r == 15
  | .subn x _, r => r == x || r == 15
  | .shl x _, r => r == x || r == 15
  | .sneReg _ _, _ => false
  | .ldI _, _ => false
  | .rnd x _, r => r == x
  | .drw _ _ _, r => r == 15
  | .skp _, _ => false
  | .sknp _, _ => false
  | .ldVxDt x, r => r == x
  | .ldVxK x, r => r == x
  | .ldDtVx _, _ => false
  | .ldStVx _, _ => false
  | .addI _, _ => false
  | .ldF _, _ => false
  | .ldB _, _ => false
  | .storeRegs _, _ => false
  | .loadRegs x, r => decide (r.val ≤ x.val)

/-- How an instruction leaves `pc` when it completes (R25). -/
inductive PcClass where
  /-- straight-line: `pc <- next` -/
  | straight
  /-- conditional skip: `pc <- skip` or `pc <- next` -/
  | skip
  /-- sets `pc` itself: `1nnn`, `2nnn`, `00EE` -/
  | sets
  /-- `Fx0A`: `pc <- next` when a key is held, unchanged otherwise -/
  | waits
  deriving DecidableEq, Repr

/-- The lists of R25. -/
def pcClass : Instr → PcClass
  | .cls => .straight
  | .ret => .sets
  | .jp _ => .sets
  | .call _ => .sets
  | .seImm _ _ => .skip
  | .sneImm _ _ => .skip
  | .seReg _ _ => .skip
  | .ldImm _ _ => .straight
  | .addImm _ _ => .straight
  | .ldReg _ _ => .straight
  | .orReg _ _ => .straight
  | .andReg _ _ => .straight
  | .xorReg _ _ => .straight
  | .addReg _ _ => .straight
  | .sub _ _ => .straight
  | .shr _ _ => .straight
  | .subn _ _ => .straight
  | .shl _ _ => .straight
  | .sneReg _ _ => .skip
  | .ldI _ => .straight
  | .rnd _ _ => .straight
  | .drw _ _ _ => .straight
  | .skp _ => .skip
  | .sknp _ => .skip
  | .ldVxDt _ => .straight
  | .ldVxK _ => .waits
  | .ldDtVx _ => .straight
  | .ldStVx _ => .straight
  | .addI _ => .straight
  | .ldF _ => .straight
  | .ldB _ => .straight
  | .storeRegs _ => .straight
  | .loadRegs _ => .straight

/-! ### Several instructions in a row -/

/-- The instructions of the list executed one after the other, stopping where one gives no next state. -/
def execAll : List Instr → State → Host.Outcome State Fault Refusal
  | [], s => .next s
  | i :: rest, s =>
    match exec i s with
    | .next t => execAll rest t
    | .fault r => .fault r
    | .refused r => .refused r

end Sys2Proof.Machine
end

