-- ==== Sys2Proof/Certificates/Slice0/Obligations.lean ====
section
/-!
DEFINITION. The statements for the provers. The words they use (`onlyWrites`, `onlyChanges`, `goesOn`, `skipsWhen`,
`resultAndFlag`, `spriteBit`, ...) are defined in Sys2Proof/Safety.lean. Where a statement speaks of
a move (`step`), its premise `schedule = []`, or the event at the schedule's head, is how the model says which event the
host issues (log entry 7, DESIGN CHOICE); `exec` and `hostEvent` take no schedule.
-/

open Sys2Proof Sys2Proof.Machine

/-! ### Encoding -/

/-- R84: encode and decode are inverse, in both directions. -/
def Obligations.EncodeAndDecodeAreInverse : Prop :=
  (∀ i : Instr, i.wellFormed = true → decodeWord (encode i) = .instr i) ∧
  (∀ (w : Word) (i : Instr), decodeWord w = .instr i → i.wellFormed = true ∧ encode i = w)

/-- R86: a word that a row of the opcode map selects decodes to an instruction of that row; the rows are mutually exclusive;
a word that no row selects is unsupported. -/
def Obligations.DecodeFollowsTheOpcodeMap : Prop :=
  (∀ (w : Word) (row : Word × Word), row ∈ opcodeTable → rowSelects row w = true →
    ∃ i, decodeWord w = .instr i ∧ tableRow i = row) ∧
  (∀ (w : Word) (row row' : Word × Word), row ∈ opcodeTable → row' ∈ opcodeTable → rowSelects row w = true →
    rowSelects row' w = true → row = row') ∧
  (∀ w : Word, (∀ row ∈ opcodeTable, rowSelects row w = false) → decodeWord w = .unsupported w)

/-- R87, R88: the illegal words, family by family. -/
def Obligations.IllegalWordsByFamily : Prop :=
  ∀ w : Word, decodeWord w = .unsupported w ↔
    (fieldI3 w = 0x0#4 ∧ w ≠ 0x00E0#16 ∧ w ≠ 0x00EE#16) ∨
    (fieldI3 w = 0x5#4 ∧ fieldN w ≠ 0x0#4) ∨
    (fieldI3 w = 0x8#4 ∧ fieldN w ∈ [0x8#4, 0x9#4, 0xA#4, 0xB#4, 0xC#4, 0xD#4, 0xF#4]) ∨
    (fieldI3 w = 0x9#4 ∧ fieldN w ≠ 0x0#4) ∨
    fieldI3 w = 0xB#4 ∨
    (fieldI3 w = 0xE#4 ∧ fieldKK w ∉ [0x9E#8, 0xA1#8]) ∨
    (fieldI3 w = 0xF#4 ∧ fieldKK w ∉ [0x07#8, 0x0A#8, 0x15#8, 0x18#8, 0x1E#8, 0x29#8, 0x33#8, 0x55#8, 0x65#8])

/-- Words of 95_test_vectors.md section 2.1, written out from the encodings of R86, decode as they should. -/
def Obligations.WordsOfTheSpecDecode : Prop :=
  decodeWord 0x00E0#16 = .instr .cls ∧ decodeWord 0x2FFF#16 = .instr (.call 0xFFF#12) ∧
  decodeWord 0x3F00#16 = .instr (.seImm 15 0x00#8) ∧ decodeWord 0x8AB4#16 = .instr (.addReg 10 11) ∧
  decodeWord 0xD12F#16 = .instr (.drw 1 2 15) ∧ decodeWord 0xE0A1#16 = .instr (.sknp 0) ∧
  decodeWord 0xFF65#16 = .instr (.loadRegs 15) ∧ decodeWord 0x5AB1#16 = .unsupported 0x5AB1#16 ∧
  decodeWord 0xB200#16 = .unsupported 0xB200#16

/-! ### The execution cycle -/

/-- 30_encoding.md section 4 (R90): while running, a `Step` executes the instruction that the bytes at `pc` decode to, and a
word that is no instruction is fatal; while halted it does nothing. WHEN a move is a `Step` is the model's choice and no rule of
the spec (log entry 7, DESIGN CHOICE): where the host's schedule is empty, and where it names `Step` next; then the move takes
the head of the schedule and leaves the rest. -/
def Obligations.StepRunsTheDecodedInstruction : Prop :=
  (∀ (s : State) (i : Instr), s.run = .running → s.schedule = [] → decodeWord s.fetch = .instr i → step s = exec i s) ∧
  (∀ (s : State) (i : Instr) (rest : List HostEvent), s.run = .running → s.schedule = .step :: rest →
    decodeWord s.fetch = .instr i → step s = exec i (s.setSchedule rest)) ∧
  (∀ (s : State) (w : Word), s.run = .running → s.schedule = [] → decodeWord s.fetch = .unsupported w →
    step s = .next (s.raiseFatal .unsupportedInstruction w)) ∧
  (∀ s : State, s.run = .halted → s.schedule = [] → step s = .next s ∧ s.stepOutcome = some .halted)

/-- R57: the word fetched, with the second address wrapping to `0x000`. -/
def Obligations.FetchReadsTwoBytesHighFirst : Prop :=
  ∀ s : State,
    s.fetch.toNat = (s.readByte (s.pc.toNat % 4096)).toNat * 256 + (s.readByte ((s.pc.toNat + 1) % 4096)).toNat

/-- R88, R202, R206: a word that is no instruction halts the block and changes nothing but the latch. -/
def Obligations.UnsupportedInstructionIsFatal : Prop :=
  ∀ (s : State) (w : Word), s.run = .running → s.schedule = [] → decodeWord s.fetch = .unsupported w →
    ∃ t, step s = .next t ∧ t.run = .halted ∧ t.faultCause = 1#3 ∧ t.faultInstr = s.fetch ∧ t.pc = s.pc ∧
      onlyWrites s t [] ∧ onlyChanges s t [.latch]

/-- R200: there is no other stop. From every state, with every event of the host, the machine has a next state. -/
def Obligations.EveryMoveHasANextState : Prop :=
  ∀ s : State, ∃ t, step s = .next t

/-- R206, R207: a `Step` that halts the block changes nothing but the latch; `pc` still holds the address of the failing
word; the cause says why. -/
def Obligations.FatalConditionsArePrecise : Prop :=
  ∀ s t : State, s.run = .running → s.schedule = [] → step s = .next t → t.run = .halted →
    t.pc = s.pc ∧ onlyWrites s t [] ∧ onlyChanges s t [.latch] ∧ t.faultInstr = s.fetch ∧ t.fetch = t.faultInstr ∧
    ((t.faultCause = 1#3 ∧ decodeWord s.fetch = .unsupported s.fetch) ∨
     (t.faultCause = 2#3 ∧ s.sp.val = 16 ∧ ∃ nnn, decodeWord s.fetch = .instr (.call nnn)) ∨
     (t.faultCause = 3#3 ∧ s.sp.val = 0 ∧ decodeWord s.fetch = .instr .ret))

/-- R9: every `Step` has exactly one outcome of the four, each when the rule says. -/
def Obligations.OutcomeOfEveryStep : Prop :=
  ∀ s t : State, s.schedule = [] → step s = .next t →
    (s.stepOutcome = some .halted ↔ s.run = .halted) ∧
    (∀ code, s.stepOutcome = some (.fatal code) ↔ s.run = .running ∧ t.run = .halted ∧ t.faultCause = code) ∧
    (s.stepOutcome = some .awaitingInput ↔
      s.run = .running ∧ (∃ x, decodeWord s.fetch = .instr (.ldVxK x)) ∧ ∀ k, k < 16 → s.keys.getLsbD k = false) ∧
    (s.stepOutcome = some .advanced → ∃ i, decodeWord s.fetch = .instr i ∧ exec i s = .next t ∧ t.run = .running) ∧
    (s.stepOutcome = some .halted ∨ s.stepOutcome = some .awaitingInput → t = s) ∧
    (∀ code, s.stepOutcome = some (.fatal code) → t.pc = s.pc ∧ onlyWrites s t [] ∧ onlyChanges s t [.latch]) ∧
    (∃ outcome, s.stepOutcome = some outcome)

/-! ### Invariants and whole-machine rules -/

/-- The reset state of R36 meets the invariant. -/
def Obligations.ResetStateIsLegal : Prop := State.reset.Inv

/-- R24, R27, R31, R34, R201: every move of the machine, whichever event the host issues, keeps the invariant. -/
def Obligations.EveryMoveKeepsTheInvariant : Prop :=
  ∀ s t : State, s.Inv → step s = .next t → t.Inv

/-- R210: the halt is sticky. -/
def Obligations.HaltIsSticky : Prop :=
  ∀ s : State, s.run = .halted →
    s.hostEvent .step = .next s ∧ s.stepOutcome = some .halted ∧ s.hostEvent .tick = .next s ∧
    (∀ bytes, s.hostEvent (.load bytes) = .next s) ∧
    (∀ keys, ∃ t, s.hostEvent (.setKeys keys) = .next t ∧ t.pc = s.pc ∧ onlyWrites s t [] ∧ onlyChanges s t [.keys]) ∧
    (∃ t, s.hostEvent .reset = .next t ∧ t.run = .running ∧ t.faultCause = 0#3 ∧ t.faultInstr = 0#16) ∧
    (∀ t, step s = .next t → t.run = .running → ∃ rest, s.schedule = .reset :: rest) ∧
    (∀ t, step s = .next t → t.run = .halted → t.faultCause = s.faultCause ∧ t.faultInstr = s.faultInstr)

/-- R21, R23: which general registers an instruction can write. -/
def Obligations.OnlyListedInstructionsWriteRegisters : Prop :=
  ∀ (i : Instr) (s t : State) (r : Reg), exec i s = .next t → writesReg i r = false → t.readReg r = s.readReg r

/-- R25: how every instruction leaves `pc`. -/
def Obligations.NextPcOfEveryInstruction : Prop :=
  ∀ (i : Instr) (s t : State), exec i s = .next t →
    (pcClass i = .straight → goesOn s t) ∧
    (pcClass i = .skip → goesOn s t ∨ t.pc.toNat = (s.pc.toNat + 4) % 4096) ∧
    (pcClass i = .waits → (∃ k, k < 16 ∧ s.keys.getLsbD k = true) → goesOn s t) ∧
    (pcClass i = .waits → (∀ k, k < 16 → s.keys.getLsbD k = false) → t = s) ∧
    (∀ nnn, i = .jp nnn → t.pc.toNat = nnn.toNat) ∧
    (∀ nnn, i = .call nnn → s.sp.val < 16 → t.pc.toNat = nnn.toNat) ∧
    (∀ h : 0 < s.sp.val, i = .ret → t.pc.toNat = (s.top h).toNat % 4096) ∧
    (s.run = .running → t.run = .halted → t.pc = s.pc)

/-- R32: the framebuffer is "Mutated only by the clear operation and the sprite-draw operation", and `Reset` clears it. -/
def Obligations.OnlyClearAndDrawChangePixels : Prop :=
  (∀ (i : Instr) (s t : State), exec i s = .next t → t.fb ≠ s.fb → i = .cls ∨ ∃ x y n, i = .drw x y n) ∧
  (∀ s t : State, step s = .next t → t.fb ≠ s.fb →
    decodeWord s.fetch = .instr .cls ∨ (∃ x y n, decodeWord s.fetch = .instr (.drw x y n)) ∨
    ∃ rest, s.schedule = .reset :: rest) ∧
  (∀ s : State, ∃ t, s.hostEvent .reset = .next t ∧ ∀ r c, pixel t.fb r c = false)

/-- R66: the writers of memory are the instructions `Fx33` and `Fx55` (R59), `Reset`, and `Load` in the image's range. -/
def Obligations.OnlyStoresChangeMemory : Prop :=
  (∀ (i : Instr) (s t : State) (a : Nat), exec i s = .next t → t.readByte a ≠ s.readByte a →
    (∃ x, i = .ldB x) ∨ ∃ x, i = .storeRegs x) ∧
  (∀ (s t : State) (a : Nat), step s = .next t → a < 4096 → t.readByte a ≠ s.readByte a →
    (∃ x, decodeWord s.fetch = .instr (.ldB x)) ∨ (∃ x, decodeWord s.fetch = .instr (.storeRegs x)) ∨
    (∃ rest, s.schedule = .reset :: rest) ∨
    ∃ bytes rest, s.schedule = .load bytes :: rest ∧ 0x200 ≤ a ∧ a < 0x200 + bytes.length)

/-- R27, R28, R29, R30: the writers of `I`, of the timers and of the call stack. A `Step` never counts a timer down. -/
def Obligations.OnlyListedInstructionsWriteSpecialRegisters : Prop :=
  ∀ (i : Instr) (s t : State), exec i s = .next t →
    (t.index ≠ s.index →
      (∃ nnn, i = .ldI nnn) ∨ ∃ x, i = .addI x ∨ i = .ldF x ∨ i = .storeRegs x ∨ i = .loadRegs x) ∧
    (t.dt ≠ s.dt → ∃ x, i = .ldDtVx x) ∧
    (t.st ≠ s.st → ∃ x, i = .ldStVx x) ∧
    (t.stack ≠ s.stack → ∃ nnn, i = .call nnn) ∧
    (t.sp ≠ s.sp → (∃ nnn, i = .call nnn) ∨ i = .ret)

/-- R12, R35: no instruction writes the host's input or its schedule, and no event changes the parameters. -/
def Obligations.EnvironmentIsNotWritten : Prop :=
  (∀ (i : Instr) (s t : State), exec i s = .next t → t.keys = s.keys ∧ t.schedule = s.schedule) ∧
  (∀ s t : State, step s = .next t → t.params = s.params)

/-- R29, R185: the sound timer has no effect on anything else. Two runs that differ in `ST` alone go on to differ in `ST`
alone, whatever the host does. -/
def Obligations.SoundTimerIsNeverObserved : Prop :=
  ∀ (s t : State) (v : Byte), step s = .next t → ∃ v', step (s.setSt v) = .next (t.setSt v')

/-- R64: a store is seen by the fetch of the very next instruction. -/
def Obligations.StoresReachTheNextFetch : Prop :=
  ∀ (x : Reg) (s : State), 1 ≤ x.val → s.index.toNat % 4096 = (s.pc.toNat + 2) % 4096 →
    ∃ t, exec (.storeRegs x) s = .next t ∧ t.fetch.toNat = (s.readReg 0).toNat * 256 + (s.readReg 1).toNat

/-! ### The host's events -/

/-- R240, R242: `Reset` from any state, and it is idempotent. -/
def Obligations.ResetFromAnyState : Prop :=
  State.reset.hostEvent .reset = .next State.reset ∧
  ∀ s : State, ∃ t, s.hostEvent .reset = .next t ∧
    (∀ r, t.readReg r = 0#8) ∧ t.pc = 0x200#16 ∧ t.index = 0#16 ∧ t.sp.val = 0 ∧
    (∀ k, (h : k < 16) → t.stack[k] = 0#16) ∧ t.dt = 0#8 ∧ t.st = 0#8 ∧
    (∀ a, (h : a < 80) → t.readByte a = s.params.font[a]) ∧ (∀ a, 80 ≤ a → a < 4096 → t.readByte a = 0#8) ∧
    (∀ r c, pixel t.fb r c = false) ∧ t.run = .running ∧ t.faultCause = 0#3 ∧ t.faultInstr = 0#16 ∧
    t.keys = s.keys ∧ t.hostEvent .reset = .next t

/-- 70_reset_and_hazards.md section 1 and 30_encoding.md section 3 (R241, which the spec derives from R240 and R88): `Reset`
erases the loaded program, and a `Step` after it with no `Load` halts the block on the word `0x0000`. -/
def Obligations.StepWithoutLoadHalts : Prop :=
  ∀ s : State, (∀ a, 0x200 ≤ a → a < 4096 → s.resetEvent.readByte a = 0#8) ∧
    ∃ t, s.resetEvent.hostEvent .step = .next t ∧ t.run = .halted ∧ t.faultCause = 1#3 ∧ t.faultInstr = 0x0000#16 ∧
      t.pc = 0x200#16

/-- R244: `Load` of at most 3584 bytes writes the image and nothing else; of more it is fatal and writes no byte; while halted
it does nothing. -/
def Obligations.LoadPlacesTheImage : Prop :=
  ∀ (s : State) (bytes : List Byte), ∃ t, s.hostEvent (.load bytes) = .next t ∧ t.pc = s.pc ∧ onlyWrites s t [] ∧
    (s.run = .running → bytes.length ≤ 3584 →
      (∀ k, (h : k < bytes.length) → t.readByte (0x200 + k) = bytes[k]) ∧
      (∀ a, a < 4096 → a < 0x200 ∨ 0x200 + bytes.length ≤ a → t.readByte a = s.readByte a) ∧
      onlyChanges s t [.memory]) ∧
    (s.run = .running → 3584 < bytes.length →
      t.run = .halted ∧ t.faultCause = 4#3 ∧ t.faultInstr = 0#16 ∧ onlyChanges s t [.latch]) ∧
    (s.run = .halted → t = s)

/-- R205: `Load` of more than 3584 bytes halts the block and writes no byte; exactly 3584 bytes fill `0x200` to `0xFFF`. -/
def Obligations.LoadTooLargeIsFatal : Prop :=
  ∀ (s : State) (bytes : List Byte), s.run = .running →
    (3584 < bytes.length → ∃ t, s.hostEvent (.load bytes) = .next t ∧ t.run = .halted ∧ t.faultCause = 4#3 ∧
      ∀ a, t.readByte a = s.readByte a) ∧
    (bytes.length = 3584 → ∃ t, s.hostEvent (.load bytes) = .next t ∧ t.run = .running ∧
      ∀ a, (h : a < bytes.length) → t.readByte (0x200 + a) = bytes[a])

/-- R183: `Tick` counts each timer that is not zero down by one and touches nothing else; nothing while halted. -/
def Obligations.TickCountsDown : Prop :=
  ∀ s : State, ∃ t, s.hostEvent .tick = .next t ∧
    (s.run = .running → t.dt.toNat = s.dt.toNat - 1 ∧ t.st.toNat = s.st.toNat - 1) ∧ (s.run = .halted → t = s) ∧
    t.pc = s.pc ∧ onlyWrites s t [] ∧ onlyChanges s t [.delayTimer, .soundTimer]

/-! ### Control transfer -/

/-- R101. -/
def Obligations.JumpGoesToItsAddress : Prop :=
  ∀ (nnn : BitVec 12) (s : State), (encode (.jp nnn)).toNat = 0x1000 + nnn.toNat ∧
    ∃ t, exec (.jp nnn) s = .next t ∧ t.pc.toNat = nnn.toNat ∧ onlyWrites s t [] ∧ onlyChanges s t []

/-- R102: the call, and the call with a full stack. -/
def Obligations.CallPushesTheReturnAddress : Prop :=
  ∀ (nnn : BitVec 12) (s : State), (encode (.call nnn)).toNat = 0x2000 + nnn.toNat ∧
    (s.sp.val < 16 → ∃ t, exec (.call nnn) s = .next t ∧ t.pc.toNat = nnn.toNat ∧ t.sp.val = s.sp.val + 1 ∧
      (∀ k, (h : k < 16) → k = s.sp.val → t.stack[k].toNat = (s.pc.toNat + 2) % 4096) ∧
      (∀ k, (h : k < 16) → k ≠ s.sp.val → t.stack[k] = s.stack[k]) ∧ onlyWrites s t [] ∧ onlyChanges s t [.stack]) ∧
    (s.sp.val = 16 → ∃ t, exec (.call nnn) s = .next t ∧ t.run = .halted ∧ t.faultCause = 2#3 ∧
      t.faultInstr = encode (.call nnn) ∧ t.pc = s.pc ∧ onlyWrites s t [] ∧ onlyChanges s t [.latch])

/-- R103: the return, the return with an empty stack, and the source's property: a call and then a return come back behind
the call, with the stack as deep as before. -/
def Obligations.ReturnPopsTheReturnAddress : Prop :=
  encode .ret = 0x00EE#16 ∧
  (∀ s : State, 0 < s.sp.val → ∃ t, exec .ret s = .next t ∧ t.sp.val = s.sp.val - 1 ∧ t.stack = s.stack ∧
    (∀ k, (h : k < 16) → k = s.sp.val - 1 → t.pc.toNat = s.stack[k].toNat % 4096) ∧
    onlyWrites s t [] ∧ onlyChanges s t [.stack]) ∧
  (∀ s : State, s.sp.val = 0 → ∃ t, exec .ret s = .next t ∧ t.run = .halted ∧ t.faultCause = 3#3 ∧
    t.faultInstr = 0x00EE#16 ∧ t.pc = s.pc ∧ onlyWrites s t [] ∧ onlyChanges s t [.latch]) ∧
  (∀ (nnn : BitVec 12) (s : State), s.sp.val < 16 →
    ∃ t, execAll [.call nnn, .ret] s = .next t ∧ goesOn s t ∧ t.sp = s.sp ∧ onlyWrites s t [] ∧ onlyChanges s t [.stack])

/-- R204: a return with an empty stack is fatal. After `Reset` the stack is empty, so a return that no call precedes is fatal,
whatever instructions ran before it. -/
def Obligations.ReturnWithEmptyStackIsFatal : Prop :=
  (∀ s : State, s.resetEvent.sp.val = 0) ∧
  (∀ (s t : State) (instrs : List Instr), s.sp.val = 0 → (∀ i ∈ instrs, (∀ nnn, i ≠ .call nnn) ∧ i ≠ .ret) →
    execAll instrs s = .next t →
    ∃ u, exec .ret t = .next u ∧ u.run = .halted ∧ u.faultCause = 3#3 ∧ u.faultInstr = 0x00EE#16)

/-- R203: a call with a full stack is fatal before anything is pushed; "16 consecutive `2nnn` calls succeed; a 17th is fatal". -/
def Obligations.SeventeenthCallIsFatal : Prop :=
  (∀ (nnn : BitVec 12) (s : State), s.sp.val = 16 → ∃ t, exec (.call nnn) s = .next t ∧ t.run = .halted ∧
    t.faultCause = 2#3 ∧ t.sp = s.sp ∧ t.stack = s.stack) ∧
  (∀ (s : State) (targets : List (BitVec 12)) (last : BitVec 12), s.sp.val = 0 → s.run = .running → targets.length = 16 →
    (∃ t, execAll (targets.map .call) s = .next t ∧ t.sp.val = 16 ∧ t.run = .running) ∧
    (∃ t, execAll (targets.map .call ++ [.call last]) s = .next t ∧ t.sp.val = 16 ∧ t.run = .halted ∧ t.faultCause = 2#3))

/-- R104, R105. -/
def Obligations.SkipsOnImmediate : Prop :=
  ∀ (x : Reg) (kk : Byte) (s : State),
    (encode (.seImm x kk)).toNat = 0x3000 + x.val * 0x100 + kk.toNat ∧
    (encode (.sneImm x kk)).toNat = 0x4000 + x.val * 0x100 + kk.toNat ∧
    (∃ t, exec (.seImm x kk) s = .next t ∧ skipsWhen (s.readReg x = kk) s t ∧ onlyWrites s t [] ∧ onlyChanges s t []) ∧
    (∃ t, exec (.sneImm x kk) s = .next t ∧ skipsWhen (s.readReg x ≠ kk) s t ∧ onlyWrites s t [] ∧ onlyChanges s t [])

/-- R106, R107: the two skips, and the words with a low nibble other than 0, which are no instruction. -/
def Obligations.SkipsOnRegisters : Prop :=
  ∀ (x y : Reg) (s : State),
    (encode (.seReg x y)).toNat = 0x5000 + x.val * 0x100 + y.val * 0x10 ∧
    (encode (.sneReg x y)).toNat = 0x9000 + x.val * 0x100 + y.val * 0x10 ∧
    (∀ n : BitVec 4, n ≠ 0#4 →
      decodeWord (formatXYN 0x5#4 x y n) = .unsupported (formatXYN 0x5#4 x y n) ∧
      decodeWord (formatXYN 0x9#4 x y n) = .unsupported (formatXYN 0x9#4 x y n)) ∧
    (∃ t, exec (.seReg x y) s = .next t ∧ skipsWhen (s.readReg x = s.readReg y) s t ∧ onlyWrites s t [] ∧
      onlyChanges s t []) ∧
    (∃ t, exec (.sneReg x y) s = .next t ∧ skipsWhen (s.readReg x ≠ s.readReg y) s t ∧ onlyWrites s t [] ∧
      onlyChanges s t [])

/-! ### Immediates and random -/

/-- R120, R121. -/
def Obligations.LoadAndAddImmediate : Prop :=
  ∀ (x : Reg) (kk : Byte) (s : State),
    (encode (.ldImm x kk)).toNat = 0x6000 + x.val * 0x100 + kk.toNat ∧
    (encode (.addImm x kk)).toNat = 0x7000 + x.val * 0x100 + kk.toNat ∧
    (∃ t, exec (.ldImm x kk) s = .next t ∧ t.readReg x = kk ∧ goesOn s t ∧ onlyWrites s t [x] ∧ onlyChanges s t []) ∧
    (∃ t, exec (.addImm x kk) s = .next t ∧ (t.readReg x).toNat = ((s.readReg x).toNat + kk.toNat) % 256 ∧ goesOn s t ∧
      onlyWrites s t [x] ∧ onlyChanges s t [])

/-- R122. -/
def Obligations.LoadIndexRegister : Prop :=
  ∀ (nnn : BitVec 12) (s : State), (encode (.ldI nnn)).toNat = 0xA000 + nnn.toNat ∧
    ∃ t, exec (.ldI nnn) s = .next t ∧ t.index.toNat = nnn.toNat ∧ goesOn s t ∧ onlyWrites s t [] ∧ onlyChanges s t [.index]

/-- R123 with R12, R222 and U1. The byte drawn is the free value of log entry 4; the last bound holds for every draw. -/
def Obligations.RandomByteIsMasked : Prop :=
  ∀ (x : Reg) (kk : Byte) (s : State), (encode (.rnd x kk)).toNat = 0xC000 + x.val * 0x100 + kk.toNat ∧
    ∃ t, exec (.rnd x kk) s = .next t ∧ t.readReg x = Config.rnd s.draws &&& kk ∧ t.draws = s.draws + 1 ∧
      goesOn s t ∧ onlyWrites s t [x] ∧ onlyChanges s t [.draws] ∧ t.readReg x &&& ~~~kk = 0#8

/-! ### ALU -/

/-- R131, R132, R133, R134: no flag is written. -/
def Obligations.CopyAndLogicWriteNoFlag : Prop :=
  ∀ (x y : Reg) (s : State),
    (encode (.ldReg x y)).toNat = 0x8000 + x.val * 0x100 + y.val * 0x10 ∧
    (encode (.orReg x y)).toNat = 0x8001 + x.val * 0x100 + y.val * 0x10 ∧
    (encode (.andReg x y)).toNat = 0x8002 + x.val * 0x100 + y.val * 0x10 ∧
    (encode (.xorReg x y)).toNat = 0x8003 + x.val * 0x100 + y.val * 0x10 ∧
    (∃ t, exec (.ldReg x y) s = .next t ∧ t.readReg x = s.readReg y ∧ goesOn s t ∧ onlyWrites s t [x] ∧
      onlyChanges s t []) ∧
    (∃ t, exec (.orReg x y) s = .next t ∧ t.readReg x = s.readReg x ||| s.readReg y ∧ goesOn s t ∧ onlyWrites s t [x] ∧
      onlyChanges s t []) ∧
    (∃ t, exec (.andReg x y) s = .next t ∧ t.readReg x = s.readReg x &&& s.readReg y ∧ goesOn s t ∧ onlyWrites s t [x] ∧
      onlyChanges s t []) ∧
    (∃ t, exec (.xorReg x y) s = .next t ∧ t.readReg x = s.readReg x ^^^ s.readReg y ∧ goesOn s t ∧ onlyWrites s t [x] ∧
      onlyChanges s t [])

/-- R135, R141. -/
def Obligations.AddReportsTheCarry : Prop :=
  ∀ (x y : Reg) (s : State), (encode (.addReg x y)).toNat = 0x8004 + x.val * 0x100 + y.val * 0x10 ∧
    ∃ t, exec (.addReg x y) s = .next t ∧
      resultAndFlag s t x (BitVec.ofNat 8 (((s.readReg x).toNat + (s.readReg y).toNat) % 256))
        (255 < (s.readReg x).toNat + (s.readReg y).toNat) ∧
      goesOn s t ∧ onlyWrites s t [x, 15] ∧ onlyChanges s t []

/-- R136, R138, R141: both flags are strict, and at equal operands 0. -/
def Obligations.SubtractionsReportAStrictFlag : Prop :=
  ∀ (x y : Reg) (s : State),
    (encode (.sub x y)).toNat = 0x8005 + x.val * 0x100 + y.val * 0x10 ∧
    (encode (.subn x y)).toNat = 0x8007 + x.val * 0x100 + y.val * 0x10 ∧
    (∃ t, exec (.sub x y) s = .next t ∧
      resultAndFlag s t x (BitVec.ofNat 8 ((256 + (s.readReg x).toNat - (s.readReg y).toNat) % 256))
        ((s.readReg y).toNat < (s.readReg x).toNat) ∧
      goesOn s t ∧ onlyWrites s t [x, 15] ∧ onlyChanges s t []) ∧
    (∃ t, exec (.subn x y) s = .next t ∧
      resultAndFlag s t x (BitVec.ofNat 8 ((256 + (s.readReg y).toNat - (s.readReg x).toNat) % 256))
        ((s.readReg x).toNat < (s.readReg y).toNat) ∧
      goesOn s t ∧ onlyWrites s t [x, 15] ∧ onlyChanges s t [])

/-- R137, R139, R141, for both values of `SHIFT_SOURCE`. -/
def Obligations.ShiftsReportTheBitShiftedOut : Prop :=
  ∀ (x y : Reg) (s : State) (v : Byte),
    (s.params.shiftSource = .x → v = s.readReg x) → (s.params.shiftSource = .y → v = s.readReg y) →
    (encode (.shr x y)).toNat = 0x8006 + x.val * 0x100 + y.val * 0x10 ∧
    (encode (.shl x y)).toNat = 0x800E + x.val * 0x100 + y.val * 0x10 ∧
    (∃ t, exec (.shr x y) s = .next t ∧ resultAndFlag s t x (BitVec.ofNat 8 (v.toNat / 2)) (v.toNat % 2 = 1) ∧
      goesOn s t ∧ onlyWrites s t [x, 15] ∧ onlyChanges s t []) ∧
    (∃ t, exec (.shl x y) s = .next t ∧ resultAndFlag s t x (BitVec.ofNat 8 (v.toNat * 2 % 256)) (128 ≤ v.toNat) ∧
      goesOn s t ∧ onlyWrites s t [x, 15] ∧ onlyChanges s t [])

/-! ### Display -/

/-- R151. -/
def Obligations.ClearTurnsEveryPixelOff : Prop :=
  encode .cls = 0x00E0#16 ∧
  ∀ s : State, ∃ t, exec .cls s = .next t ∧ (∀ r c, pixel t.fb r c = false) ∧ goesOn s t ∧ onlyWrites s t [] ∧
    onlyChanges s t [.framebuffer]

/-- R153, R154, R155, R157: each pixel of the grid is XORed with the sprite bit that falls on it, and `x[15]` reports
whether one was turned off. -/
def Obligations.DrawXorsTheSprite : Prop :=
  ∀ (x y : Reg) (n : Nat) (s : State), n < 16 →
    (encode (.drw x y n)).toNat = 0xD000 + x.val * 0x100 + y.val * 0x10 + n ∧
    ∃ t, exec (.drw x y n) s = .next t ∧
      (∀ r c, r < 32 → c < 64 → pixel t.fb r c = (spriteBit s x y n r c ^^ pixel s.fb r c)) ∧
      isFlag (t.readReg 15) (collides s x y n) ∧ goesOn s t ∧ onlyWrites s t [15] ∧ onlyChanges s t [.framebuffer]

/-- R156 and, of R154, the sprite that starts beyond the right or the bottom edge: a sprite of no rows draws nothing and
reports no collision, and so does one off the grid; no word decodes to a sprite of 16 rows. -/
def Obligations.DrawOutsideTheGridDoesNothing : Prop :=
  (∀ (x y : Reg) (n : Nat) (s : State), n = 0 ∨ 64 ≤ (s.readReg x).toNat ∨ 32 ≤ (s.readReg y).toNat →
    ∃ t, exec (.drw x y n) s = .next t ∧ t.fb = s.fb ∧ t.readReg 15 = 0#8 ∧ goesOn s t ∧ onlyWrites s t [15] ∧
      onlyChanges s t []) ∧
  (∀ (w : Word) (x y : Reg) (n : Nat), decodeWord w = .instr (.drw x y n) → n < 16)

/-- R157, the source's property: the same sprite drawn twice restores every pixel, and on a clear framebuffer collision is
reported on the second draw only. -/
def Obligations.DrawTwiceRestores : Prop :=
  ∀ (x y : Reg) (n : Nat) (s : State), x ≠ 15 → y ≠ 15 →
    ∃ t u, exec (.drw x y n) s = .next t ∧ exec (.drw x y n) t = .next u ∧ u.fb = s.fb ∧
      ((∀ r c, r < 32 → c < 64 → pixel s.fb r c = false) →
        t.readReg 15 = 0#8 ∧
        isFlag (u.readReg 15) (∃ r c, r < 32 ∧ c < 64 ∧ spriteBit s x y n r c = true))

/-- R33: `fb_out[r*64 + c] = FB[r][c]`. -/
def Obligations.FramebufferPortShowsEveryPixel : Prop :=
  ∀ (s : State) (r c : Nat), r < 32 → c < 64 → s.fbOut.getLsbD (r * 64 + c) = pixel s.fb r c

/-! ### Keyboard -/

/-- R171, R172, for an index 0 to 15. -/
def Obligations.SkipsOnKey : Prop :=
  ∀ (x : Reg) (s : State),
    (encode (.skp x)).toNat = 0xE09E + x.val * 0x100 ∧ (encode (.sknp x)).toNat = 0xE0A1 + x.val * 0x100 ∧
    ((s.readReg x).toNat < 16 →
      (∃ t, exec (.skp x) s = .next t ∧ skipsWhen (s.keys.getLsbD (s.readReg x).toNat = true) s t ∧ onlyWrites s t [] ∧
        onlyChanges s t []) ∧
      (∃ t, exec (.sknp x) s = .next t ∧ skipsWhen (s.keys.getLsbD (s.readReg x).toNat = false) s t ∧
        onlyWrites s t [] ∧ onlyChanges s t []))

/-- R170 with R171 and R172, for an index 16 to 255: the answer is the free value of log entry 3, whichever it is, and no
query faults. -/
def Obligations.KeyIndexOutOfRangeIsADraw : Prop :=
  ∀ (x : Reg) (s : State), 16 ≤ (s.readReg x).toNat →
    (∃ t, exec (.skp x) s = .next t ∧ skipsWhen (Config.keyOor s.draws = true) s t ∧ t.draws = s.draws + 1 ∧
      onlyWrites s t [] ∧ onlyChanges s t [.draws]) ∧
    (∃ t, exec (.sknp x) s = .next t ∧ skipsWhen (Config.keyOor s.draws = false) s t ∧ t.draws = s.draws + 1 ∧
      onlyWrites s t [] ∧ onlyChanges s t [.draws])

/-- R173: the lowest held key, outcome `Advanced`; with no key held, no state change at all, outcome `AwaitingInput`. -/
def Obligations.KeyWaitStoresTheLowestKey : Prop :=
  ∀ (x : Reg) (s : State), (encode (.ldVxK x)).toNat = 0xF00A + x.val * 0x100 ∧
    (∀ k, k < 16 → s.keys.getLsbD k = true → (∀ j, j < k → s.keys.getLsbD j = false) →
      ∃ t, exec (.ldVxK x) s = .next t ∧ (t.readReg x).toNat = k ∧ goesOn s t ∧ onlyWrites s t [x] ∧ onlyChanges s t [] ∧
        (s.run = .running → execOutcome (.ldVxK x) s t = .advanced)) ∧
    ((∀ k, k < 16 → s.keys.getLsbD k = false) →
      exec (.ldVxK x) s = .next s ∧ (s.run = .running → execOutcome (.ldVxK x) s s = .awaitingInput))

/-- R174: waiting is a retry. With no key held a `Step` at `Fx0A` changes nothing and a batch of any size stops at it; a `Tick`
still counts the timers down and the instruction is still there; once a key is held the same `Step` completes. -/
def Obligations.WaitingIsARetry : Prop :=
  ∀ (x : Reg) (s : State) (n : Nat), s.run = .running → s.schedule = [] → decodeWord s.fetch = .instr (.ldVxK x) →
    (∀ k, k < 16 → s.keys.getLsbD k = false) →
    step s = .next s ∧ s.stepOutcome = some .awaitingInput ∧ State.executeBatch (n + 1) s = .next s ∧
    (∃ u, s.hostEvent .tick = .next u ∧ u.dt.toNat = s.dt.toNat - 1 ∧ u.stepOutcome = some .awaitingInput ∧
      step u = .next u) ∧
    (∀ (keys : BitVec 16) (k : Nat), k < 16 → keys.getLsbD k = true → (∀ j, j < k → keys.getLsbD j = false) →
      ∃ t u, s.hostEvent (.setKeys keys) = .next t ∧ step t = .next u ∧ (u.readReg x).toNat = k ∧ goesOn s u)

/-! ### Timers -/

/-- R180, R181, R182. -/
def Obligations.TimerInstructionsMoveAByte : Prop :=
  ∀ (x : Reg) (s : State),
    (encode (.ldVxDt x)).toNat = 0xF007 + x.val * 0x100 ∧ (encode (.ldDtVx x)).toNat = 0xF015 + x.val * 0x100 ∧
    (encode (.ldStVx x)).toNat = 0xF018 + x.val * 0x100 ∧
    (∃ t, exec (.ldVxDt x) s = .next t ∧ t.readReg x = s.dt ∧ goesOn s t ∧ onlyWrites s t [x] ∧ onlyChanges s t []) ∧
    (∃ t, exec (.ldDtVx x) s = .next t ∧ t.dt = s.readReg x ∧ goesOn s t ∧ onlyWrites s t [] ∧
      onlyChanges s t [.delayTimer]) ∧
    (∃ t, exec (.ldStVx x) s = .next t ∧ t.st = s.readReg x ∧ goesOn s t ∧ onlyWrites s t [] ∧
      onlyChanges s t [.soundTimer])

/-! ### Index register and memory -/

/-- R191, R192. -/
def Obligations.IndexArithmetic : Prop :=
  ∀ (x : Reg) (s : State),
    (encode (.addI x)).toNat = 0xF01E + x.val * 0x100 ∧ (encode (.ldF x)).toNat = 0xF029 + x.val * 0x100 ∧
    (∃ t, exec (.addI x) s = .next t ∧ t.index.toNat = (s.index.toNat + (s.readReg x).toNat) % 4096 ∧ goesOn s t ∧
      onlyWrites s t [] ∧ onlyChanges s t [.index]) ∧
    (∃ t, exec (.ldF x) s = .next t ∧ t.index.toNat = (s.readReg x).toNat * 5 ∧ goesOn s t ∧ onlyWrites s t [] ∧
      onlyChanges s t [.index])

/-- R193. -/
def Obligations.BcdStoresThreeDigits : Prop :=
  ∀ (x : Reg) (s : State), (encode (.ldB x)).toNat = 0xF033 + x.val * 0x100 ∧
    ∃ t, exec (.ldB x) s = .next t ∧
      (t.readByte (s.operandAddr 0)).toNat = (s.readReg x).toNat / 100 ∧
      (t.readByte (s.operandAddr 1)).toNat = (s.readReg x).toNat / 10 % 10 ∧
      (t.readByte (s.operandAddr 2)).toNat = (s.readReg x).toNat % 10 ∧
      memoryOutside s t (s.operandAddr 0) 3 ∧ goesOn s t ∧ onlyWrites s t [] ∧ onlyChanges s t [.memory]

/-- R194. -/
def Obligations.StoreRegistersAndMoveIndex : Prop :=
  ∀ (x : Reg) (s : State), (encode (.storeRegs x)).toNat = 0xF055 + x.val * 0x100 ∧
    ∃ t, exec (.storeRegs x) s = .next t ∧ (∀ r : Reg, r.val ≤ x.val → t.readByte (s.operandAddr r.val) = s.readReg r) ∧
      memoryOutside s t (s.operandAddr 0) (x.val + 1) ∧ t.index.toNat = (s.index.toNat + x.val + 1) % 4096 ∧
      goesOn s t ∧ onlyWrites s t [] ∧ onlyChanges s t [.memory, .index]

/-- R195. -/
def Obligations.LoadRegistersAndMoveIndex : Prop :=
  ∀ (x : Reg) (s : State), (encode (.loadRegs x)).toNat = 0xF065 + x.val * 0x100 ∧
    ∃ t, exec (.loadRegs x) s = .next t ∧ (∀ r : Reg, r.val ≤ x.val → t.readReg r = s.readByte (s.operandAddr r.val)) ∧
      (∀ r : Reg, x.val < r.val → t.readReg r = s.readReg r) ∧ t.index.toNat = (s.index.toNat + x.val + 1) % 4096 ∧
      goesOn s t ∧ onlyChanges s t [.index]

/-- 46_index_and_memory.md section 4 (R196, which the spec derives from R194 and R195): a store and a load of the same
registers restore them when `I` is reloaded between the two; without that the load reads the bytes after the stored range. -/
def Obligations.StoreThenLoadNeedsTheIndexReloaded : Prop :=
  ∀ (x : Reg) (nnn : BitVec 12) (s : State), s.index.toNat = nnn.toNat →
    (∃ t, execAll [.storeRegs x, .ldI nnn, .loadRegs x] s = .next t ∧ onlyWrites s t []) ∧
    (∃ t, execAll [.storeRegs x, .loadRegs x] s = .next t ∧
      ∀ r : Reg, r.val ≤ x.val → t.readReg r = s.readByte (s.operandAddr (x.val + 1 + r.val)))
end

