-- ==== Sys2Proof/Laws/Memory.lean ====
section
/-!
SUPPORT. The laws of memory: a read after a write, that a write leaves every other address alone, and that every memory
operation keeps the canonical form.
-/

namespace Sys2Proof.Machine

/-! ### Reads -/

theorem Memory.read_insert (font : Font) (m : List Host.Cell) (a b : Nat) (v : Byte) :
    Memory.read font (Memory.insert a v m) b = if a = b then v else Memory.read font m b := by
  induction m with
  | nil => simp [Memory.insert, Memory.read]
  | cons c rest ih =>
    obtain ⟨k, w⟩ := c
    unfold Memory.insert
    split
    · simp [Memory.read]
    · split
      · next h => subst h; simp only [Memory.read]; split <;> rfl
      · next h =>
        simp only [Memory.read, ih]
        split <;> split <;> simp_all

theorem Memory.read_erase (font : Font) (m : List Host.Cell) (a b : Nat) :
    Memory.read font (Memory.erase a m) b = if a = b then Memory.unlisted font b else Memory.read font m b := by
  induction m with
  | nil => simp [Memory.erase, Memory.read]
  | cons c rest ih =>
    obtain ⟨k, w⟩ := c
    unfold Memory.erase at ih ⊢
    by_cases hk : k = a
    · subst hk
      simp only [List.filter_cons, bne_self_eq_false, Bool.false_eq_true, if_false, ih, Memory.read]
      split <;> rfl
    · have hne : (k != a) = true := by simp [hk]
      simp only [List.filter_cons, hne, if_true, Memory.read, ih]
      split
      · next hkb => subst hkb; simp [Ne.symm hk]
      · rfl

/-- What a write of memory does: the byte written reads back, and every other address reads as before. -/
theorem Memory.read_write (font : Font) (m : List Host.Cell) (a b : Nat) (v : Byte) :
    Memory.read font (Memory.write font m a v) b = if a = b then v else Memory.read font m b := by
  unfold Memory.write
  split
  · next h =>
    rw [Memory.read_erase]
    split
    · next hab => rw [h, hab]
    · rfl
  · exact Memory.read_insert ..

/-! ### The canonical form -/

theorem Memory.mem_insert (m : List Host.Cell) (a : Nat) (v : Byte) (c : Host.Cell) (h : c ∈ Memory.insert a v m) :
    c = (a, v) ∨ c ∈ m := by
  induction m with
  | nil => simpa [Memory.insert] using h
  | cons d rest ih =>
    obtain ⟨k, w⟩ := d
    unfold Memory.insert at h
    split at h
    · simpa using h
    · split at h
      · rcases List.mem_cons.mp h with h | h
        · exact .inl h
        · exact .inr (List.mem_cons_of_mem _ h)
      · rcases List.mem_cons.mp h with h | h
        · exact .inr (by simp [h])
        · exact (ih h).imp_right (List.mem_cons_of_mem _)

theorem Memory.insert_sorted (m : List Host.Cell) (a : Nat) (v : Byte) (h : m.Pairwise fun c d => c.1 < d.1) :
    (Memory.insert a v m).Pairwise fun c d => c.1 < d.1 := by
  induction m with
  | nil => simp [Memory.insert]
  | cons d rest ih =>
    obtain ⟨k, w⟩ := d
    have hrest := List.pairwise_cons.mp h
    unfold Memory.insert
    split
    · next hak =>
      refine List.pairwise_cons.mpr ⟨fun c hc => ?_, h⟩
      rcases List.mem_cons.mp hc with rfl | hc
      · exact hak
      · exact Nat.lt_trans hak (hrest.1 c hc)
    · split
      · next hak =>
        subst hak
        exact List.pairwise_cons.mpr ⟨fun c hc => hrest.1 c hc, hrest.2⟩
      · refine List.pairwise_cons.mpr ⟨fun c hc => ?_, ih hrest.2⟩
        rcases Memory.mem_insert _ _ _ _ hc with rfl | hc
        · simp only; omega
        · exact hrest.1 c hc

/-- Every memory operation keeps the canonical form. -/
theorem Memory.write_wf (font : Font) (m : List Host.Cell) (a : Nat) (v : Byte) (ha : a < 4096)
    (h : Memory.wf font m) : Memory.wf font (Memory.write font m a v) := by
  unfold Memory.write
  split
  · refine ⟨h.1.filter _, fun c hc => h.2 c ?_⟩
    exact (List.mem_filter.mp hc).1
  · next hv =>
    refine ⟨Memory.insert_sorted _ _ _ h.1, fun c hc => ?_⟩
    rcases Memory.mem_insert _ _ _ _ hc with rfl | hc
    · exact ⟨ha, hv⟩
    · exact h.2 c hc

theorem Memory.nil_wf (font : Font) : Memory.wf font [] := ⟨List.Pairwise.nil, nofun⟩

/-- An address without an entry reads as `Reset` left it. -/
theorem Memory.read_of_not_listed (font : Font) (m : List Host.Cell) (a : Nat) (h : ∀ c ∈ m, c.1 ≠ a) :
    Memory.read font m a = Memory.unlisted font a := by
  induction m with
  | nil => rfl
  | cons c rest ih =>
    obtain ⟨k, w⟩ := c
    have hk : k ≠ a := h (k, w) (by simp)
    simp only [Memory.read, hk, if_false]
    exact ih fun c hc => h c (List.mem_cons_of_mem _ hc)

end Sys2Proof.Machine
end

