-- ==== Sys2Proof/Laws/State.lean ====
section
/-!
SUPPORT. One lemma per field per update of the state, each true by `rfl`: no later proof unfolds a record update. Then the
same for the three updates that branch or recurse.
-/

namespace Sys2Proof.Machine

/-! ### `writeReg` -/

@[simp] theorem State.writeReg_regs (s : State) (i : Reg) (v : Byte) : (s.writeReg i v).regs = s.regs.set i.val v := rfl
@[simp] theorem State.writeReg_pc (s : State) (i : Reg) (v : Byte) : (s.writeReg i v).pc = s.pc := rfl
@[simp] theorem State.writeReg_index (s : State) (i : Reg) (v : Byte) : (s.writeReg i v).index = s.index := rfl
@[simp] theorem State.writeReg_sp (s : State) (i : Reg) (v : Byte) : (s.writeReg i v).sp = s.sp := rfl
@[simp] theorem State.writeReg_stack (s : State) (i : Reg) (v : Byte) : (s.writeReg i v).stack = s.stack := rfl
@[simp] theorem State.writeReg_dt (s : State) (i : Reg) (v : Byte) : (s.writeReg i v).dt = s.dt := rfl
@[simp] theorem State.writeReg_st (s : State) (i : Reg) (v : Byte) : (s.writeReg i v).st = s.st := rfl
@[simp] theorem State.writeReg_mem (s : State) (i : Reg) (v : Byte) : (s.writeReg i v).mem = s.mem := rfl
@[simp] theorem State.writeReg_fb (s : State) (i : Reg) (v : Byte) : (s.writeReg i v).fb = s.fb := rfl
@[simp] theorem State.writeReg_run (s : State) (i : Reg) (v : Byte) : (s.writeReg i v).run = s.run := rfl
@[simp] theorem State.writeReg_faultCause (s : State) (i : Reg) (v : Byte) : (s.writeReg i v).faultCause = s.faultCause := rfl
@[simp] theorem State.writeReg_faultInstr (s : State) (i : Reg) (v : Byte) : (s.writeReg i v).faultInstr = s.faultInstr := rfl
@[simp] theorem State.writeReg_keys (s : State) (i : Reg) (v : Byte) : (s.writeReg i v).keys = s.keys := rfl
@[simp] theorem State.writeReg_params (s : State) (i : Reg) (v : Byte) : (s.writeReg i v).params = s.params := rfl
@[simp] theorem State.writeReg_draws (s : State) (i : Reg) (v : Byte) : (s.writeReg i v).draws = s.draws := rfl
@[simp] theorem State.writeReg_schedule (s : State) (i : Reg) (v : Byte) : (s.writeReg i v).schedule = s.schedule := rfl

/-! ### `setPc` -/

@[simp] theorem State.setPc_regs (s : State) (t : Word) : (s.setPc t).regs = s.regs := rfl
@[simp] theorem State.setPc_pc (s : State) (t : Word) : (s.setPc t).pc = wrapAddr t := rfl
@[simp] theorem State.setPc_index (s : State) (t : Word) : (s.setPc t).index = s.index := rfl
@[simp] theorem State.setPc_sp (s : State) (t : Word) : (s.setPc t).sp = s.sp := rfl
@[simp] theorem State.setPc_stack (s : State) (t : Word) : (s.setPc t).stack = s.stack := rfl
@[simp] theorem State.setPc_dt (s : State) (t : Word) : (s.setPc t).dt = s.dt := rfl
@[simp] theorem State.setPc_st (s : State) (t : Word) : (s.setPc t).st = s.st := rfl
@[simp] theorem State.setPc_mem (s : State) (t : Word) : (s.setPc t).mem = s.mem := rfl
@[simp] theorem State.setPc_fb (s : State) (t : Word) : (s.setPc t).fb = s.fb := rfl
@[simp] theorem State.setPc_run (s : State) (t : Word) : (s.setPc t).run = s.run := rfl
@[simp] theorem State.setPc_faultCause (s : State) (t : Word) : (s.setPc t).faultCause = s.faultCause := rfl
@[simp] theorem State.setPc_faultInstr (s : State) (t : Word) : (s.setPc t).faultInstr = s.faultInstr := rfl
@[simp] theorem State.setPc_keys (s : State) (t : Word) : (s.setPc t).keys = s.keys := rfl
@[simp] theorem State.setPc_params (s : State) (t : Word) : (s.setPc t).params = s.params := rfl
@[simp] theorem State.setPc_draws (s : State) (t : Word) : (s.setPc t).draws = s.draws := rfl
@[simp] theorem State.setPc_schedule (s : State) (t : Word) : (s.setPc t).schedule = s.schedule := rfl

/-! ### `setIndex` -/

@[simp] theorem State.setIndex_regs (s : State) (t : Word) : (s.setIndex t).regs = s.regs := rfl
@[simp] theorem State.setIndex_pc (s : State) (t : Word) : (s.setIndex t).pc = s.pc := rfl
@[simp] theorem State.setIndex_index (s : State) (t : Word) : (s.setIndex t).index = wrapAddr t := rfl
@[simp] theorem State.setIndex_sp (s : State) (t : Word) : (s.setIndex t).sp = s.sp := rfl
@[simp] theorem State.setIndex_stack (s : State) (t : Word) : (s.setIndex t).stack = s.stack := rfl
@[simp] theorem State.setIndex_dt (s : State) (t : Word) : (s.setIndex t).dt = s.dt := rfl
@[simp] theorem State.setIndex_st (s : State) (t : Word) : (s.setIndex t).st = s.st := rfl
@[simp] theorem State.setIndex_mem (s : State) (t : Word) : (s.setIndex t).mem = s.mem := rfl
@[simp] theorem State.setIndex_fb (s : State) (t : Word) : (s.setIndex t).fb = s.fb := rfl
@[simp] theorem State.setIndex_run (s : State) (t : Word) : (s.setIndex t).run = s.run := rfl
@[simp] theorem State.setIndex_faultCause (s : State) (t : Word) : (s.setIndex t).faultCause = s.faultCause := rfl
@[simp] theorem State.setIndex_faultInstr (s : State) (t : Word) : (s.setIndex t).faultInstr = s.faultInstr := rfl
@[simp] theorem State.setIndex_keys (s : State) (t : Word) : (s.setIndex t).keys = s.keys := rfl
@[simp] theorem State.setIndex_params (s : State) (t : Word) : (s.setIndex t).params = s.params := rfl
@[simp] theorem State.setIndex_draws (s : State) (t : Word) : (s.setIndex t).draws = s.draws := rfl
@[simp] theorem State.setIndex_schedule (s : State) (t : Word) : (s.setIndex t).schedule = s.schedule := rfl

/-! ### `writeByte` -/

@[simp] theorem State.writeByte_regs (s : State) (a : Nat) (v : Byte) : (s.writeByte a v).regs = s.regs := rfl
@[simp] theorem State.writeByte_pc (s : State) (a : Nat) (v : Byte) : (s.writeByte a v).pc = s.pc := rfl
@[simp] theorem State.writeByte_index (s : State) (a : Nat) (v : Byte) : (s.writeByte a v).index = s.index := rfl
@[simp] theorem State.writeByte_sp (s : State) (a : Nat) (v : Byte) : (s.writeByte a v).sp = s.sp := rfl
@[simp] theorem State.writeByte_stack (s : State) (a : Nat) (v : Byte) : (s.writeByte a v).stack = s.stack := rfl
@[simp] theorem State.writeByte_dt (s : State) (a : Nat) (v : Byte) : (s.writeByte a v).dt = s.dt := rfl
@[simp] theorem State.writeByte_st (s : State) (a : Nat) (v : Byte) : (s.writeByte a v).st = s.st := rfl
@[simp] theorem State.writeByte_mem (s : State) (a : Nat) (v : Byte) : (s.writeByte a v).mem = Memory.write s.params.font s.mem (a % 4096) v := rfl
@[simp] theorem State.writeByte_fb (s : State) (a : Nat) (v : Byte) : (s.writeByte a v).fb = s.fb := rfl
@[simp] theorem State.writeByte_run (s : State) (a : Nat) (v : Byte) : (s.writeByte a v).run = s.run := rfl
@[simp] theorem State.writeByte_faultCause (s : State) (a : Nat) (v : Byte) : (s.writeByte a v).faultCause = s.faultCause := rfl
@[simp] theorem State.writeByte_faultInstr (s : State) (a : Nat) (v : Byte) : (s.writeByte a v).faultInstr = s.faultInstr := rfl
@[simp] theorem State.writeByte_keys (s : State) (a : Nat) (v : Byte) : (s.writeByte a v).keys = s.keys := rfl
@[simp] theorem State.writeByte_params (s : State) (a : Nat) (v : Byte) : (s.writeByte a v).params = s.params := rfl
@[simp] theorem State.writeByte_draws (s : State) (a : Nat) (v : Byte) : (s.writeByte a v).draws = s.draws := rfl
@[simp] theorem State.writeByte_schedule (s : State) (a : Nat) (v : Byte) : (s.writeByte a v).schedule = s.schedule := rfl

/-! ### `push` -/

@[simp] theorem State.push_regs (s : State) (v : Word) (h : s.sp.val < 16) : (s.push v h).regs = s.regs := rfl
@[simp] theorem State.push_pc (s : State) (v : Word) (h : s.sp.val < 16) : (s.push v h).pc = s.pc := rfl
@[simp] theorem State.push_index (s : State) (v : Word) (h : s.sp.val < 16) : (s.push v h).index = s.index := rfl
@[simp] theorem State.push_sp (s : State) (v : Word) (h : s.sp.val < 16) : (s.push v h).sp = ⟨s.sp.val + 1, by omega⟩ := rfl
@[simp] theorem State.push_stack (s : State) (v : Word) (h : s.sp.val < 16) : (s.push v h).stack = s.stack.set s.sp.val v := rfl
@[simp] theorem State.push_dt (s : State) (v : Word) (h : s.sp.val < 16) : (s.push v h).dt = s.dt := rfl
@[simp] theorem State.push_st (s : State) (v : Word) (h : s.sp.val < 16) : (s.push v h).st = s.st := rfl
@[simp] theorem State.push_mem (s : State) (v : Word) (h : s.sp.val < 16) : (s.push v h).mem = s.mem := rfl
@[simp] theorem State.push_fb (s : State) (v : Word) (h : s.sp.val < 16) : (s.push v h).fb = s.fb := rfl
@[simp] theorem State.push_run (s : State) (v : Word) (h : s.sp.val < 16) : (s.push v h).run = s.run := rfl
@[simp] theorem State.push_faultCause (s : State) (v : Word) (h : s.sp.val < 16) : (s.push v h).faultCause = s.faultCause := rfl
@[simp] theorem State.push_faultInstr (s : State) (v : Word) (h : s.sp.val < 16) : (s.push v h).faultInstr = s.faultInstr := rfl
@[simp] theorem State.push_keys (s : State) (v : Word) (h : s.sp.val < 16) : (s.push v h).keys = s.keys := rfl
@[simp] theorem State.push_params (s : State) (v : Word) (h : s.sp.val < 16) : (s.push v h).params = s.params := rfl
@[simp] theorem State.push_draws (s : State) (v : Word) (h : s.sp.val < 16) : (s.push v h).draws = s.draws := rfl
@[simp] theorem State.push_schedule (s : State) (v : Word) (h : s.sp.val < 16) : (s.push v h).schedule = s.schedule := rfl

/-! ### `pop` -/

@[simp] theorem State.pop_regs (s : State) : (s.pop).regs = s.regs := rfl
@[simp] theorem State.pop_pc (s : State) : (s.pop).pc = s.pc := rfl
@[simp] theorem State.pop_index (s : State) : (s.pop).index = s.index := rfl
@[simp] theorem State.pop_sp (s : State) : (s.pop).sp = ⟨s.sp.val - 1, by omega⟩ := rfl
@[simp] theorem State.pop_stack (s : State) : (s.pop).stack = s.stack := rfl
@[simp] theorem State.pop_dt (s : State) : (s.pop).dt = s.dt := rfl
@[simp] theorem State.pop_st (s : State) : (s.pop).st = s.st := rfl
@[simp] theorem State.pop_mem (s : State) : (s.pop).mem = s.mem := rfl
@[simp] theorem State.pop_fb (s : State) : (s.pop).fb = s.fb := rfl
@[simp] theorem State.pop_run (s : State) : (s.pop).run = s.run := rfl
@[simp] theorem State.pop_faultCause (s : State) : (s.pop).faultCause = s.faultCause := rfl
@[simp] theorem State.pop_faultInstr (s : State) : (s.pop).faultInstr = s.faultInstr := rfl
@[simp] theorem State.pop_keys (s : State) : (s.pop).keys = s.keys := rfl
@[simp] theorem State.pop_params (s : State) : (s.pop).params = s.params := rfl
@[simp] theorem State.pop_draws (s : State) : (s.pop).draws = s.draws := rfl
@[simp] theorem State.pop_schedule (s : State) : (s.pop).schedule = s.schedule := rfl

/-! ### `setDt` -/

@[simp] theorem State.setDt_regs (s : State) (v : Byte) : (s.setDt v).regs = s.regs := rfl
@[simp] theorem State.setDt_pc (s : State) (v : Byte) : (s.setDt v).pc = s.pc := rfl
@[simp] theorem State.setDt_index (s : State) (v : Byte) : (s.setDt v).index = s.index := rfl
@[simp] theorem State.setDt_sp (s : State) (v : Byte) : (s.setDt v).sp = s.sp := rfl
@[simp] theorem State.setDt_stack (s : State) (v : Byte) : (s.setDt v).stack = s.stack := rfl
@[simp] theorem State.setDt_dt (s : State) (v : Byte) : (s.setDt v).dt = v := rfl
@[simp] theorem State.setDt_st (s : State) (v : Byte) : (s.setDt v).st = s.st := rfl
@[simp] theorem State.setDt_mem (s : State) (v : Byte) : (s.setDt v).mem = s.mem := rfl
@[simp] theorem State.setDt_fb (s : State) (v : Byte) : (s.setDt v).fb = s.fb := rfl
@[simp] theorem State.setDt_run (s : State) (v : Byte) : (s.setDt v).run = s.run := rfl
@[simp] theorem State.setDt_faultCause (s : State) (v : Byte) : (s.setDt v).faultCause = s.faultCause := rfl
@[simp] theorem State.setDt_faultInstr (s : State) (v : Byte) : (s.setDt v).faultInstr = s.faultInstr := rfl
@[simp] theorem State.setDt_keys (s : State) (v : Byte) : (s.setDt v).keys = s.keys := rfl
@[simp] theorem State.setDt_params (s : State) (v : Byte) : (s.setDt v).params = s.params := rfl
@[simp] theorem State.setDt_draws (s : State) (v : Byte) : (s.setDt v).draws = s.draws := rfl
@[simp] theorem State.setDt_schedule (s : State) (v : Byte) : (s.setDt v).schedule = s.schedule := rfl

/-! ### `setSt` -/

@[simp] theorem State.setSt_regs (s : State) (v : Byte) : (s.setSt v).regs = s.regs := rfl
@[simp] theorem State.setSt_pc (s : State) (v : Byte) : (s.setSt v).pc = s.pc := rfl
@[simp] theorem State.setSt_index (s : State) (v : Byte) : (s.setSt v).index = s.index := rfl
@[simp] theorem State.setSt_sp (s : State) (v : Byte) : (s.setSt v).sp = s.sp := rfl
@[simp] theorem State.setSt_stack (s : State) (v : Byte) : (s.setSt v).stack = s.stack := rfl
@[simp] theorem State.setSt_dt (s : State) (v : Byte) : (s.setSt v).dt = s.dt := rfl
@[simp] theorem State.setSt_st (s : State) (v : Byte) : (s.setSt v).st = v := rfl
@[simp] theorem State.setSt_mem (s : State) (v : Byte) : (s.setSt v).mem = s.mem := rfl
@[simp] theorem State.setSt_fb (s : State) (v : Byte) : (s.setSt v).fb = s.fb := rfl
@[simp] theorem State.setSt_run (s : State) (v : Byte) : (s.setSt v).run = s.run := rfl
@[simp] theorem State.setSt_faultCause (s : State) (v : Byte) : (s.setSt v).faultCause = s.faultCause := rfl
@[simp] theorem State.setSt_faultInstr (s : State) (v : Byte) : (s.setSt v).faultInstr = s.faultInstr := rfl
@[simp] theorem State.setSt_keys (s : State) (v : Byte) : (s.setSt v).keys = s.keys := rfl
@[simp] theorem State.setSt_params (s : State) (v : Byte) : (s.setSt v).params = s.params := rfl
@[simp] theorem State.setSt_draws (s : State) (v : Byte) : (s.setSt v).draws = s.draws := rfl
@[simp] theorem State.setSt_schedule (s : State) (v : Byte) : (s.setSt v).schedule = s.schedule := rfl

/-! ### `setFb` -/

@[simp] theorem State.setFb_regs (s : State) (fb : Framebuffer) : (s.setFb fb).regs = s.regs := rfl
@[simp] theorem State.setFb_pc (s : State) (fb : Framebuffer) : (s.setFb fb).pc = s.pc := rfl
@[simp] theorem State.setFb_index (s : State) (fb : Framebuffer) : (s.setFb fb).index = s.index := rfl
@[simp] theorem State.setFb_sp (s : State) (fb : Framebuffer) : (s.setFb fb).sp = s.sp := rfl
@[simp] theorem State.setFb_stack (s : State) (fb : Framebuffer) : (s.setFb fb).stack = s.stack := rfl
@[simp] theorem State.setFb_dt (s : State) (fb : Framebuffer) : (s.setFb fb).dt = s.dt := rfl
@[simp] theorem State.setFb_st (s : State) (fb : Framebuffer) : (s.setFb fb).st = s.st := rfl
@[simp] theorem State.setFb_mem (s : State) (fb : Framebuffer) : (s.setFb fb).mem = s.mem := rfl
@[simp] theorem State.setFb_fb (s : State) (fb : Framebuffer) : (s.setFb fb).fb = fb := rfl
@[simp] theorem State.setFb_run (s : State) (fb : Framebuffer) : (s.setFb fb).run = s.run := rfl
@[simp] theorem State.setFb_faultCause (s : State) (fb : Framebuffer) : (s.setFb fb).faultCause = s.faultCause := rfl
@[simp] theorem State.setFb_faultInstr (s : State) (fb : Framebuffer) : (s.setFb fb).faultInstr = s.faultInstr := rfl
@[simp] theorem State.setFb_keys (s : State) (fb : Framebuffer) : (s.setFb fb).keys = s.keys := rfl
@[simp] theorem State.setFb_params (s : State) (fb : Framebuffer) : (s.setFb fb).params = s.params := rfl
@[simp] theorem State.setFb_draws (s : State) (fb : Framebuffer) : (s.setFb fb).draws = s.draws := rfl
@[simp] theorem State.setFb_schedule (s : State) (fb : Framebuffer) : (s.setFb fb).schedule = s.schedule := rfl

/-! ### `countDraw` -/

@[simp] theorem State.countDraw_regs (s : State) : (s.countDraw).regs = s.regs := rfl
@[simp] theorem State.countDraw_pc (s : State) : (s.countDraw).pc = s.pc := rfl
@[simp] theorem State.countDraw_index (s : State) : (s.countDraw).index = s.index := rfl
@[simp] theorem State.countDraw_sp (s : State) : (s.countDraw).sp = s.sp := rfl
@[simp] theorem State.countDraw_stack (s : State) : (s.countDraw).stack = s.stack := rfl
@[simp] theorem State.countDraw_dt (s : State) : (s.countDraw).dt = s.dt := rfl
@[simp] theorem State.countDraw_st (s : State) : (s.countDraw).st = s.st := rfl
@[simp] theorem State.countDraw_mem (s : State) : (s.countDraw).mem = s.mem := rfl
@[simp] theorem State.countDraw_fb (s : State) : (s.countDraw).fb = s.fb := rfl
@[simp] theorem State.countDraw_run (s : State) : (s.countDraw).run = s.run := rfl
@[simp] theorem State.countDraw_faultCause (s : State) : (s.countDraw).faultCause = s.faultCause := rfl
@[simp] theorem State.countDraw_faultInstr (s : State) : (s.countDraw).faultInstr = s.faultInstr := rfl
@[simp] theorem State.countDraw_keys (s : State) : (s.countDraw).keys = s.keys := rfl
@[simp] theorem State.countDraw_params (s : State) : (s.countDraw).params = s.params := rfl
@[simp] theorem State.countDraw_draws (s : State) : (s.countDraw).draws = s.draws + 1 := rfl
@[simp] theorem State.countDraw_schedule (s : State) : (s.countDraw).schedule = s.schedule := rfl

/-! ### `raiseFatal` -/

@[simp] theorem State.raiseFatal_regs (s : State) (c : Cause) (w : Word) : (s.raiseFatal c w).regs = s.regs := rfl
@[simp] theorem State.raiseFatal_pc (s : State) (c : Cause) (w : Word) : (s.raiseFatal c w).pc = s.pc := rfl
@[simp] theorem State.raiseFatal_index (s : State) (c : Cause) (w : Word) : (s.raiseFatal c w).index = s.index := rfl
@[simp] theorem State.raiseFatal_sp (s : State) (c : Cause) (w : Word) : (s.raiseFatal c w).sp = s.sp := rfl
@[simp] theorem State.raiseFatal_stack (s : State) (c : Cause) (w : Word) : (s.raiseFatal c w).stack = s.stack := rfl
@[simp] theorem State.raiseFatal_dt (s : State) (c : Cause) (w : Word) : (s.raiseFatal c w).dt = s.dt := rfl
@[simp] theorem State.raiseFatal_st (s : State) (c : Cause) (w : Word) : (s.raiseFatal c w).st = s.st := rfl
@[simp] theorem State.raiseFatal_mem (s : State) (c : Cause) (w : Word) : (s.raiseFatal c w).mem = s.mem := rfl
@[simp] theorem State.raiseFatal_fb (s : State) (c : Cause) (w : Word) : (s.raiseFatal c w).fb = s.fb := rfl
@[simp] theorem State.raiseFatal_run (s : State) (c : Cause) (w : Word) : (s.raiseFatal c w).run = .halted := rfl
@[simp] theorem State.raiseFatal_faultCause (s : State) (c : Cause) (w : Word) : (s.raiseFatal c w).faultCause = c.code := rfl
@[simp] theorem State.raiseFatal_faultInstr (s : State) (c : Cause) (w : Word) : (s.raiseFatal c w).faultInstr = w := rfl
@[simp] theorem State.raiseFatal_keys (s : State) (c : Cause) (w : Word) : (s.raiseFatal c w).keys = s.keys := rfl
@[simp] theorem State.raiseFatal_params (s : State) (c : Cause) (w : Word) : (s.raiseFatal c w).params = s.params := rfl
@[simp] theorem State.raiseFatal_draws (s : State) (c : Cause) (w : Word) : (s.raiseFatal c w).draws = s.draws := rfl
@[simp] theorem State.raiseFatal_schedule (s : State) (c : Cause) (w : Word) : (s.raiseFatal c w).schedule = s.schedule := rfl

/-! ### `loadUpTo` -/

@[simp] theorem State.loadUpTo_regs (s : State) (x : Reg) :
    (s.loadUpTo x).regs = Vector.ofFn fun i => if i.val ≤ x.val then s.readByte (s.operandAddr i.val) else s.regs[i.val] := rfl
@[simp] theorem State.loadUpTo_pc (s : State) (x : Reg) : (s.loadUpTo x).pc = s.pc := rfl
@[simp] theorem State.loadUpTo_index (s : State) (x : Reg) : (s.loadUpTo x).index = s.index := rfl
@[simp] theorem State.loadUpTo_sp (s : State) (x : Reg) : (s.loadUpTo x).sp = s.sp := rfl
@[simp] theorem State.loadUpTo_stack (s : State) (x : Reg) : (s.loadUpTo x).stack = s.stack := rfl
@[simp] theorem State.loadUpTo_dt (s : State) (x : Reg) : (s.loadUpTo x).dt = s.dt := rfl
@[simp] theorem State.loadUpTo_st (s : State) (x : Reg) : (s.loadUpTo x).st = s.st := rfl
@[simp] theorem State.loadUpTo_mem (s : State) (x : Reg) : (s.loadUpTo x).mem = s.mem := rfl
@[simp] theorem State.loadUpTo_fb (s : State) (x : Reg) : (s.loadUpTo x).fb = s.fb := rfl
@[simp] theorem State.loadUpTo_run (s : State) (x : Reg) : (s.loadUpTo x).run = s.run := rfl
@[simp] theorem State.loadUpTo_faultCause (s : State) (x : Reg) : (s.loadUpTo x).faultCause = s.faultCause := rfl
@[simp] theorem State.loadUpTo_faultInstr (s : State) (x : Reg) : (s.loadUpTo x).faultInstr = s.faultInstr := rfl
@[simp] theorem State.loadUpTo_keys (s : State) (x : Reg) : (s.loadUpTo x).keys = s.keys := rfl
@[simp] theorem State.loadUpTo_params (s : State) (x : Reg) : (s.loadUpTo x).params = s.params := rfl
@[simp] theorem State.loadUpTo_draws (s : State) (x : Reg) : (s.loadUpTo x).draws = s.draws := rfl
@[simp] theorem State.loadUpTo_schedule (s : State) (x : Reg) : (s.loadUpTo x).schedule = s.schedule := rfl

/-! ### `keysEvent` -/

@[simp] theorem State.keysEvent_regs (s : State) (keys : BitVec 16) : (s.keysEvent keys).regs = s.regs := rfl
@[simp] theorem State.keysEvent_pc (s : State) (keys : BitVec 16) : (s.keysEvent keys).pc = s.pc := rfl
@[simp] theorem State.keysEvent_index (s : State) (keys : BitVec 16) : (s.keysEvent keys).index = s.index := rfl
@[simp] theorem State.keysEvent_sp (s : State) (keys : BitVec 16) : (s.keysEvent keys).sp = s.sp := rfl
@[simp] theorem State.keysEvent_stack (s : State) (keys : BitVec 16) : (s.keysEvent keys).stack = s.stack := rfl
@[simp] theorem State.keysEvent_dt (s : State) (keys : BitVec 16) : (s.keysEvent keys).dt = s.dt := rfl
@[simp] theorem State.keysEvent_st (s : State) (keys : BitVec 16) : (s.keysEvent keys).st = s.st := rfl
@[simp] theorem State.keysEvent_mem (s : State) (keys : BitVec 16) : (s.keysEvent keys).mem = s.mem := rfl
@[simp] theorem State.keysEvent_fb (s : State) (keys : BitVec 16) : (s.keysEvent keys).fb = s.fb := rfl
@[simp] theorem State.keysEvent_run (s : State) (keys : BitVec 16) : (s.keysEvent keys).run = s.run := rfl
@[simp] theorem State.keysEvent_faultCause (s : State) (keys : BitVec 16) : (s.keysEvent keys).faultCause = s.faultCause := rfl
@[simp] theorem State.keysEvent_faultInstr (s : State) (keys : BitVec 16) : (s.keysEvent keys).faultInstr = s.faultInstr := rfl
@[simp] theorem State.keysEvent_keys (s : State) (keys : BitVec 16) : (s.keysEvent keys).keys = keys := rfl
@[simp] theorem State.keysEvent_params (s : State) (keys : BitVec 16) : (s.keysEvent keys).params = s.params := rfl
@[simp] theorem State.keysEvent_draws (s : State) (keys : BitVec 16) : (s.keysEvent keys).draws = s.draws := rfl
@[simp] theorem State.keysEvent_schedule (s : State) (keys : BitVec 16) : (s.keysEvent keys).schedule = s.schedule := rfl

/-! ### `setSchedule` -/

@[simp] theorem State.setSchedule_regs (s : State) (evs : List HostEvent) : (s.setSchedule evs).regs = s.regs := rfl
@[simp] theorem State.setSchedule_pc (s : State) (evs : List HostEvent) : (s.setSchedule evs).pc = s.pc := rfl
@[simp] theorem State.setSchedule_index (s : State) (evs : List HostEvent) : (s.setSchedule evs).index = s.index := rfl
@[simp] theorem State.setSchedule_sp (s : State) (evs : List HostEvent) : (s.setSchedule evs).sp = s.sp := rfl
@[simp] theorem State.setSchedule_stack (s : State) (evs : List HostEvent) : (s.setSchedule evs).stack = s.stack := rfl
@[simp] theorem State.setSchedule_dt (s : State) (evs : List HostEvent) : (s.setSchedule evs).dt = s.dt := rfl
@[simp] theorem State.setSchedule_st (s : State) (evs : List HostEvent) : (s.setSchedule evs).st = s.st := rfl
@[simp] theorem State.setSchedule_mem (s : State) (evs : List HostEvent) : (s.setSchedule evs).mem = s.mem := rfl
@[simp] theorem State.setSchedule_fb (s : State) (evs : List HostEvent) : (s.setSchedule evs).fb = s.fb := rfl
@[simp] theorem State.setSchedule_run (s : State) (evs : List HostEvent) : (s.setSchedule evs).run = s.run := rfl
@[simp] theorem State.setSchedule_faultCause (s : State) (evs : List HostEvent) : (s.setSchedule evs).faultCause = s.faultCause := rfl
@[simp] theorem State.setSchedule_faultInstr (s : State) (evs : List HostEvent) : (s.setSchedule evs).faultInstr = s.faultInstr := rfl
@[simp] theorem State.setSchedule_keys (s : State) (evs : List HostEvent) : (s.setSchedule evs).keys = s.keys := rfl
@[simp] theorem State.setSchedule_params (s : State) (evs : List HostEvent) : (s.setSchedule evs).params = s.params := rfl
@[simp] theorem State.setSchedule_draws (s : State) (evs : List HostEvent) : (s.setSchedule evs).draws = s.draws := rfl
@[simp] theorem State.setSchedule_schedule (s : State) (evs : List HostEvent) : (s.setSchedule evs).schedule = evs := rfl

/-! ### `advance` -/

@[simp] theorem State.advance_regs (s : State) : (s.advance).regs = s.regs := rfl
@[simp] theorem State.advance_pc (s : State) : (s.advance).pc = wrapAddr s.nextPc := rfl
@[simp] theorem State.advance_index (s : State) : (s.advance).index = s.index := rfl
@[simp] theorem State.advance_sp (s : State) : (s.advance).sp = s.sp := rfl
@[simp] theorem State.advance_stack (s : State) : (s.advance).stack = s.stack := rfl
@[simp] theorem State.advance_dt (s : State) : (s.advance).dt = s.dt := rfl
@[simp] theorem State.advance_st (s : State) : (s.advance).st = s.st := rfl
@[simp] theorem State.advance_mem (s : State) : (s.advance).mem = s.mem := rfl
@[simp] theorem State.advance_fb (s : State) : (s.advance).fb = s.fb := rfl
@[simp] theorem State.advance_run (s : State) : (s.advance).run = s.run := rfl
@[simp] theorem State.advance_faultCause (s : State) : (s.advance).faultCause = s.faultCause := rfl
@[simp] theorem State.advance_faultInstr (s : State) : (s.advance).faultInstr = s.faultInstr := rfl
@[simp] theorem State.advance_keys (s : State) : (s.advance).keys = s.keys := rfl
@[simp] theorem State.advance_params (s : State) : (s.advance).params = s.params := rfl
@[simp] theorem State.advance_draws (s : State) : (s.advance).draws = s.draws := rfl
@[simp] theorem State.advance_schedule (s : State) : (s.advance).schedule = s.schedule := rfl

/-! ### `skipIf` -/

@[simp] theorem State.skipIf_regs (s : State) (c : Bool) : (s.skipIf c).regs = s.regs := rfl
@[simp] theorem State.skipIf_pc (s : State) (c : Bool) : (s.skipIf c).pc = wrapAddr (if c then s.skipPc else s.nextPc) := rfl
@[simp] theorem State.skipIf_index (s : State) (c : Bool) : (s.skipIf c).index = s.index := rfl
@[simp] theorem State.skipIf_sp (s : State) (c : Bool) : (s.skipIf c).sp = s.sp := rfl
@[simp] theorem State.skipIf_stack (s : State) (c : Bool) : (s.skipIf c).stack = s.stack := rfl
@[simp] theorem State.skipIf_dt (s : State) (c : Bool) : (s.skipIf c).dt = s.dt := rfl
@[simp] theorem State.skipIf_st (s : State) (c : Bool) : (s.skipIf c).st = s.st := rfl
@[simp] theorem State.skipIf_mem (s : State) (c : Bool) : (s.skipIf c).mem = s.mem := rfl
@[simp] theorem State.skipIf_fb (s : State) (c : Bool) : (s.skipIf c).fb = s.fb := rfl
@[simp] theorem State.skipIf_run (s : State) (c : Bool) : (s.skipIf c).run = s.run := rfl
@[simp] theorem State.skipIf_faultCause (s : State) (c : Bool) : (s.skipIf c).faultCause = s.faultCause := rfl
@[simp] theorem State.skipIf_faultInstr (s : State) (c : Bool) : (s.skipIf c).faultInstr = s.faultInstr := rfl
@[simp] theorem State.skipIf_keys (s : State) (c : Bool) : (s.skipIf c).keys = s.keys := rfl
@[simp] theorem State.skipIf_params (s : State) (c : Bool) : (s.skipIf c).params = s.params := rfl
@[simp] theorem State.skipIf_draws (s : State) (c : Bool) : (s.skipIf c).draws = s.draws := rfl
@[simp] theorem State.skipIf_schedule (s : State) (c : Bool) : (s.skipIf c).schedule = s.schedule := rfl

/-! ### `indexPast` -/

@[simp] theorem State.indexPast_regs (s : State) (x : Reg) : (s.indexPast x).regs = s.regs := rfl
@[simp] theorem State.indexPast_pc (s : State) (x : Reg) : (s.indexPast x).pc = s.pc := rfl
@[simp] theorem State.indexPast_index (s : State) (x : Reg) : (s.indexPast x).index = wrapAddr (s.index + BitVec.ofNat 16 (x.val + 1)) := rfl
@[simp] theorem State.indexPast_sp (s : State) (x : Reg) : (s.indexPast x).sp = s.sp := rfl
@[simp] theorem State.indexPast_stack (s : State) (x : Reg) : (s.indexPast x).stack = s.stack := rfl
@[simp] theorem State.indexPast_dt (s : State) (x : Reg) : (s.indexPast x).dt = s.dt := rfl
@[simp] theorem State.indexPast_st (s : State) (x : Reg) : (s.indexPast x).st = s.st := rfl
@[simp] theorem State.indexPast_mem (s : State) (x : Reg) : (s.indexPast x).mem = s.mem := rfl
@[simp] theorem State.indexPast_fb (s : State) (x : Reg) : (s.indexPast x).fb = s.fb := rfl
@[simp] theorem State.indexPast_run (s : State) (x : Reg) : (s.indexPast x).run = s.run := rfl
@[simp] theorem State.indexPast_faultCause (s : State) (x : Reg) : (s.indexPast x).faultCause = s.faultCause := rfl
@[simp] theorem State.indexPast_faultInstr (s : State) (x : Reg) : (s.indexPast x).faultInstr = s.faultInstr := rfl
@[simp] theorem State.indexPast_keys (s : State) (x : Reg) : (s.indexPast x).keys = s.keys := rfl
@[simp] theorem State.indexPast_params (s : State) (x : Reg) : (s.indexPast x).params = s.params := rfl
@[simp] theorem State.indexPast_draws (s : State) (x : Reg) : (s.indexPast x).draws = s.draws := rfl
@[simp] theorem State.indexPast_schedule (s : State) (x : Reg) : (s.indexPast x).schedule = s.schedule := rfl

/-! ### `writeFlag` -/

@[simp] theorem State.writeFlag_regs (s : State) (f : Bool) : (s.writeFlag f).regs = s.regs.set flagReg.val (flagByte f) := rfl
@[simp] theorem State.writeFlag_pc (s : State) (f : Bool) : (s.writeFlag f).pc = s.pc := rfl
@[simp] theorem State.writeFlag_index (s : State) (f : Bool) : (s.writeFlag f).index = s.index := rfl
@[simp] theorem State.writeFlag_sp (s : State) (f : Bool) : (s.writeFlag f).sp = s.sp := rfl
@[simp] theorem State.writeFlag_stack (s : State) (f : Bool) : (s.writeFlag f).stack = s.stack := rfl
@[simp] theorem State.writeFlag_dt (s : State) (f : Bool) : (s.writeFlag f).dt = s.dt := rfl
@[simp] theorem State.writeFlag_st (s : State) (f : Bool) : (s.writeFlag f).st = s.st := rfl
@[simp] theorem State.writeFlag_mem (s : State) (f : Bool) : (s.writeFlag f).mem = s.mem := rfl
@[simp] theorem State.writeFlag_fb (s : State) (f : Bool) : (s.writeFlag f).fb = s.fb := rfl
@[simp] theorem State.writeFlag_run (s : State) (f : Bool) : (s.writeFlag f).run = s.run := rfl
@[simp] theorem State.writeFlag_faultCause (s : State) (f : Bool) : (s.writeFlag f).faultCause = s.faultCause := rfl
@[simp] theorem State.writeFlag_faultInstr (s : State) (f : Bool) : (s.writeFlag f).faultInstr = s.faultInstr := rfl
@[simp] theorem State.writeFlag_keys (s : State) (f : Bool) : (s.writeFlag f).keys = s.keys := rfl
@[simp] theorem State.writeFlag_params (s : State) (f : Bool) : (s.writeFlag f).params = s.params := rfl
@[simp] theorem State.writeFlag_draws (s : State) (f : Bool) : (s.writeFlag f).draws = s.draws := rfl
@[simp] theorem State.writeFlag_schedule (s : State) (f : Bool) : (s.writeFlag f).schedule = s.schedule := rfl

/-! ### `writeRF`, `afterKey`, `writeBytes` -/

@[simp] theorem State.writeRF_pc (s : State) (x : Reg) (r : Byte) (f : Bool) : (s.writeRF x r f).pc = s.pc := by
  unfold State.writeRF; split <;> rfl
@[simp] theorem State.writeRF_index (s : State) (x : Reg) (r : Byte) (f : Bool) : (s.writeRF x r f).index = s.index := by
  unfold State.writeRF; split <;> rfl
@[simp] theorem State.writeRF_sp (s : State) (x : Reg) (r : Byte) (f : Bool) : (s.writeRF x r f).sp = s.sp := by
  unfold State.writeRF; split <;> rfl
@[simp] theorem State.writeRF_stack (s : State) (x : Reg) (r : Byte) (f : Bool) : (s.writeRF x r f).stack = s.stack := by
  unfold State.writeRF; split <;> rfl
@[simp] theorem State.writeRF_dt (s : State) (x : Reg) (r : Byte) (f : Bool) : (s.writeRF x r f).dt = s.dt := by
  unfold State.writeRF; split <;> rfl
@[simp] theorem State.writeRF_st (s : State) (x : Reg) (r : Byte) (f : Bool) : (s.writeRF x r f).st = s.st := by
  unfold State.writeRF; split <;> rfl
@[simp] theorem State.writeRF_mem (s : State) (x : Reg) (r : Byte) (f : Bool) : (s.writeRF x r f).mem = s.mem := by
  unfold State.writeRF; split <;> rfl
@[simp] theorem State.writeRF_fb (s : State) (x : Reg) (r : Byte) (f : Bool) : (s.writeRF x r f).fb = s.fb := by
  unfold State.writeRF; split <;> rfl
@[simp] theorem State.writeRF_run (s : State) (x : Reg) (r : Byte) (f : Bool) : (s.writeRF x r f).run = s.run := by
  unfold State.writeRF; split <;> rfl
@[simp] theorem State.writeRF_faultCause (s : State) (x : Reg) (r : Byte) (f : Bool) : (s.writeRF x r f).faultCause = s.faultCause := by
  unfold State.writeRF; split <;> rfl
@[simp] theorem State.writeRF_faultInstr (s : State) (x : Reg) (r : Byte) (f : Bool) : (s.writeRF x r f).faultInstr = s.faultInstr := by
  unfold State.writeRF; split <;> rfl
@[simp] theorem State.writeRF_keys (s : State) (x : Reg) (r : Byte) (f : Bool) : (s.writeRF x r f).keys = s.keys := by
  unfold State.writeRF; split <;> rfl
@[simp] theorem State.writeRF_params (s : State) (x : Reg) (r : Byte) (f : Bool) : (s.writeRF x r f).params = s.params := by
  unfold State.writeRF; split <;> rfl
@[simp] theorem State.writeRF_draws (s : State) (x : Reg) (r : Byte) (f : Bool) : (s.writeRF x r f).draws = s.draws := by
  unfold State.writeRF; split <;> rfl
@[simp] theorem State.writeRF_schedule (s : State) (x : Reg) (r : Byte) (f : Bool) : (s.writeRF x r f).schedule = s.schedule := by
  unfold State.writeRF; split <;> rfl
@[simp] theorem State.afterKey_regs (s : State) (k : Byte) : (s.afterKey k).regs = s.regs := by
  unfold State.afterKey; split <;> rfl
@[simp] theorem State.afterKey_pc (s : State) (k : Byte) : (s.afterKey k).pc = s.pc := by
  unfold State.afterKey; split <;> rfl
@[simp] theorem State.afterKey_index (s : State) (k : Byte) : (s.afterKey k).index = s.index := by
  unfold State.afterKey; split <;> rfl
@[simp] theorem State.afterKey_sp (s : State) (k : Byte) : (s.afterKey k).sp = s.sp := by
  unfold State.afterKey; split <;> rfl
@[simp] theorem State.afterKey_stack (s : State) (k : Byte) : (s.afterKey k).stack = s.stack := by
  unfold State.afterKey; split <;> rfl
@[simp] theorem State.afterKey_dt (s : State) (k : Byte) : (s.afterKey k).dt = s.dt := by
  unfold State.afterKey; split <;> rfl
@[simp] theorem State.afterKey_st (s : State) (k : Byte) : (s.afterKey k).st = s.st := by
  unfold State.afterKey; split <;> rfl
@[simp] theorem State.afterKey_mem (s : State) (k : Byte) : (s.afterKey k).mem = s.mem := by
  unfold State.afterKey; split <;> rfl
@[simp] theorem State.afterKey_fb (s : State) (k : Byte) : (s.afterKey k).fb = s.fb := by
  unfold State.afterKey; split <;> rfl
@[simp] theorem State.afterKey_run (s : State) (k : Byte) : (s.afterKey k).run = s.run := by
  unfold State.afterKey; split <;> rfl
@[simp] theorem State.afterKey_faultCause (s : State) (k : Byte) : (s.afterKey k).faultCause = s.faultCause := by
  unfold State.afterKey; split <;> rfl
@[simp] theorem State.afterKey_faultInstr (s : State) (k : Byte) : (s.afterKey k).faultInstr = s.faultInstr := by
  unfold State.afterKey; split <;> rfl
@[simp] theorem State.afterKey_keys (s : State) (k : Byte) : (s.afterKey k).keys = s.keys := by
  unfold State.afterKey; split <;> rfl
@[simp] theorem State.afterKey_params (s : State) (k : Byte) : (s.afterKey k).params = s.params := by
  unfold State.afterKey; split <;> rfl
@[simp] theorem State.afterKey_schedule (s : State) (k : Byte) : (s.afterKey k).schedule = s.schedule := by
  unfold State.afterKey; split <;> rfl
theorem State.afterKey_draws (s : State) (k : Byte) : (s.afterKey k).draws = if k.toNat < 16 then s.draws else s.draws + 1 := by
  unfold State.afterKey; split <;> rfl
@[simp] theorem State.writeBytes_regs (s : State) (a : Nat) (vs : List Byte) : (s.writeBytes a vs).regs = s.regs := by
  induction vs generalizing s a with
  | nil => rfl
  | cons v vs ih => exact ih ..
@[simp] theorem State.writeBytes_pc (s : State) (a : Nat) (vs : List Byte) : (s.writeBytes a vs).pc = s.pc := by
  induction vs generalizing s a with
  | nil => rfl
  | cons v vs ih => exact ih ..
@[simp] theorem State.writeBytes_index (s : State) (a : Nat) (vs : List Byte) : (s.writeBytes a vs).index = s.index := by
  induction vs generalizing s a with
  | nil => rfl
  | cons v vs ih => exact ih ..
@[simp] theorem State.writeBytes_sp (s : State) (a : Nat) (vs : List Byte) : (s.writeBytes a vs).sp = s.sp := by
  induction vs generalizing s a with
  | nil => rfl
  | cons v vs ih => exact ih ..
@[simp] theorem State.writeBytes_stack (s : State) (a : Nat) (vs : List Byte) : (s.writeBytes a vs).stack = s.stack := by
  induction vs generalizing s a with
  | nil => rfl
  | cons v vs ih => exact ih ..
@[simp] theorem State.writeBytes_dt (s : State) (a : Nat) (vs : List Byte) : (s.writeBytes a vs).dt = s.dt := by
  induction vs generalizing s a with
  | nil => rfl
  | cons v vs ih => exact ih ..
@[simp] theorem State.writeBytes_st (s : State) (a : Nat) (vs : List Byte) : (s.writeBytes a vs).st = s.st := by
  induction vs generalizing s a with
  | nil => rfl
  | cons v vs ih => exact ih ..
@[simp] theorem State.writeBytes_fb (s : State) (a : Nat) (vs : List Byte) : (s.writeBytes a vs).fb = s.fb := by
  induction vs generalizing s a with
  | nil => rfl
  | cons v vs ih => exact ih ..
@[simp] theorem State.writeBytes_run (s : State) (a : Nat) (vs : List Byte) : (s.writeBytes a vs).run = s.run := by
  induction vs generalizing s a with
  | nil => rfl
  | cons v vs ih => exact ih ..
@[simp] theorem State.writeBytes_faultCause (s : State) (a : Nat) (vs : List Byte) : (s.writeBytes a vs).faultCause = s.faultCause := by
  induction vs generalizing s a with
  | nil => rfl
  | cons v vs ih => exact ih ..
@[simp] theorem State.writeBytes_faultInstr (s : State) (a : Nat) (vs : List Byte) : (s.writeBytes a vs).faultInstr = s.faultInstr := by
  induction vs generalizing s a with
  | nil => rfl
  | cons v vs ih => exact ih ..
@[simp] theorem State.writeBytes_keys (s : State) (a : Nat) (vs : List Byte) : (s.writeBytes a vs).keys = s.keys := by
  induction vs generalizing s a with
  | nil => rfl
  | cons v vs ih => exact ih ..
@[simp] theorem State.writeBytes_params (s : State) (a : Nat) (vs : List Byte) : (s.writeBytes a vs).params = s.params := by
  induction vs generalizing s a with
  | nil => rfl
  | cons v vs ih => exact ih ..
@[simp] theorem State.writeBytes_draws (s : State) (a : Nat) (vs : List Byte) : (s.writeBytes a vs).draws = s.draws := by
  induction vs generalizing s a with
  | nil => rfl
  | cons v vs ih => exact ih ..
@[simp] theorem State.writeBytes_schedule (s : State) (a : Nat) (vs : List Byte) : (s.writeBytes a vs).schedule = s.schedule := by
  induction vs generalizing s a with
  | nil => rfl
  | cons v vs ih => exact ih ..

/-! ### Reads: an update that leaves the register file alone leaves every register alone, and so for memory -/

@[simp] theorem State.readByte_writeReg (s : State) (i : Reg) (v : Byte) (a : Nat) : (s.writeReg i v).readByte a = s.readByte a := rfl
@[simp] theorem State.readReg_setPc (s : State) (t : Word) (r : Reg) : (s.setPc t).readReg r = s.readReg r := rfl
@[simp] theorem State.readByte_setPc (s : State) (t : Word) (a : Nat) : (s.setPc t).readByte a = s.readByte a := rfl
@[simp] theorem State.readReg_setIndex (s : State) (t : Word) (r : Reg) : (s.setIndex t).readReg r = s.readReg r := rfl
@[simp] theorem State.readByte_setIndex (s : State) (t : Word) (a : Nat) : (s.setIndex t).readByte a = s.readByte a := rfl
@[simp] theorem State.readReg_writeByte (s : State) (b : Nat) (v : Byte) (r : Reg) : (s.writeByte b v).readReg r = s.readReg r := rfl
@[simp] theorem State.readReg_push (s : State) (v : Word) (h : s.sp.val < 16) (r : Reg) : (s.push v h).readReg r = s.readReg r := rfl
@[simp] theorem State.readByte_push (s : State) (v : Word) (h : s.sp.val < 16) (a : Nat) : (s.push v h).readByte a = s.readByte a := rfl
@[simp] theorem State.readReg_pop (s : State) (r : Reg) : (s.pop).readReg r = s.readReg r := rfl
@[simp] theorem State.readByte_pop (s : State) (a : Nat) : (s.pop).readByte a = s.readByte a := rfl
@[simp] theorem State.readReg_setDt (s : State) (v : Byte) (r : Reg) : (s.setDt v).readReg r = s.readReg r := rfl
@[simp] theorem State.readByte_setDt (s : State) (v : Byte) (a : Nat) : (s.setDt v).readByte a = s.readByte a := rfl
@[simp] theorem State.readReg_setSt (s : State) (v : Byte) (r : Reg) : (s.setSt v).readReg r = s.readReg r := rfl
@[simp] theorem State.readByte_setSt (s : State) (v : Byte) (a : Nat) : (s.setSt v).readByte a = s.readByte a := rfl
@[simp] theorem State.readReg_setFb (s : State) (fb : Framebuffer) (r : Reg) : (s.setFb fb).readReg r = s.readReg r := rfl
@[simp] theorem State.readByte_setFb (s : State) (fb : Framebuffer) (a : Nat) : (s.setFb fb).readByte a = s.readByte a := rfl
@[simp] theorem State.readReg_countDraw (s : State) (r : Reg) : (s.countDraw).readReg r = s.readReg r := rfl
@[simp] theorem State.readByte_countDraw (s : State) (a : Nat) : (s.countDraw).readByte a = s.readByte a := rfl
@[simp] theorem State.readReg_raiseFatal (s : State) (c : Cause) (w : Word) (r : Reg) : (s.raiseFatal c w).readReg r = s.readReg r := rfl
@[simp] theorem State.readByte_raiseFatal (s : State) (c : Cause) (w : Word) (a : Nat) : (s.raiseFatal c w).readByte a = s.readByte a := rfl
@[simp] theorem State.readByte_loadUpTo (s : State) (x : Reg) (a : Nat) : (s.loadUpTo x).readByte a = s.readByte a := rfl
@[simp] theorem State.readReg_keysEvent (s : State) (keys : BitVec 16) (r : Reg) : (s.keysEvent keys).readReg r = s.readReg r := rfl
@[simp] theorem State.readByte_keysEvent (s : State) (keys : BitVec 16) (a : Nat) : (s.keysEvent keys).readByte a = s.readByte a := rfl
@[simp] theorem State.readReg_setSchedule (s : State) (evs : List HostEvent) (r : Reg) : (s.setSchedule evs).readReg r = s.readReg r := rfl
@[simp] theorem State.readByte_setSchedule (s : State) (evs : List HostEvent) (a : Nat) : (s.setSchedule evs).readByte a = s.readByte a := rfl
@[simp] theorem State.readReg_advance (s : State) (r : Reg) : (s.advance).readReg r = s.readReg r := rfl
@[simp] theorem State.readByte_advance (s : State) (a : Nat) : (s.advance).readByte a = s.readByte a := rfl
@[simp] theorem State.readReg_skipIf (s : State) (c : Bool) (r : Reg) : (s.skipIf c).readReg r = s.readReg r := rfl
@[simp] theorem State.readByte_skipIf (s : State) (c : Bool) (a : Nat) : (s.skipIf c).readByte a = s.readByte a := rfl
@[simp] theorem State.readReg_indexPast (s : State) (x : Reg) (r : Reg) : (s.indexPast x).readReg r = s.readReg r := rfl
@[simp] theorem State.readByte_indexPast (s : State) (x : Reg) (a : Nat) : (s.indexPast x).readByte a = s.readByte a := rfl
@[simp] theorem State.readByte_writeFlag (s : State) (f : Bool) (a : Nat) : (s.writeFlag f).readByte a = s.readByte a := rfl
@[simp] theorem State.readByte_writeRF (s : State) (x : Reg) (v : Byte) (f : Bool) (a : Nat) : (s.writeRF x v f).readByte a = s.readByte a := by
  simp only [State.readByte, State.writeRF_mem, State.writeRF_params]
@[simp] theorem State.readReg_afterKey (s : State) (k : Byte) (r : Reg) : (s.afterKey k).readReg r = s.readReg r := by
  simp only [State.readReg, State.afterKey_regs]
@[simp] theorem State.readByte_afterKey (s : State) (k : Byte) (a : Nat) : (s.afterKey k).readByte a = s.readByte a := by
  simp only [State.readByte, State.afterKey_mem, State.afterKey_params]
@[simp] theorem State.readReg_writeBytes (s : State) (b : Nat) (vs : List Byte) (r : Reg) : (s.writeBytes b vs).readReg r = s.readReg r := by
  simp only [State.readReg, State.writeBytes_regs]

end Sys2Proof.Machine
end

