-- ==== Sys2Proof/Laws/Ops.lean ====
section
/-!
SUPPORT. One law per shared operation, saying once what it does: register and memory reads after each update, the
reduction modulo 4096, the ends of straight-line and skip instructions, pixels, and the framed parts.
-/

namespace Sys2Proof.Machine

/-! ### Registers -/

theorem State.readReg_writeReg (s : State) (i r : Reg) (v : Byte) :
    (s.writeReg i v).readReg r = if i = r then v else s.readReg r := by
  simp only [State.readReg, State.writeReg_regs, Vector.getElem_set, Fin.ext_iff]

theorem State.readReg_writeFlag (s : State) (r : Reg) (f : Bool) :
    (s.writeFlag f).readReg r = if (15 : Reg) = r then flagByte f else s.readReg r :=
  State.readReg_writeReg s 15 r (flagByte f)

/-- `WriteRF` writes only `x[X]` and `x[15]`, and for X = 15 `VF_PRIORITY` decides (R141). -/
theorem State.readReg_writeRF (s : State) (x r : Reg) (v : Byte) (f : Bool) :
    (s.writeRF x v f).readReg r =
      match s.params.vfPriority with
      | .flag => if (15 : Reg) = r then flagByte f else if x = r then v else s.readReg r
      | .result => if x = r then v else if (15 : Reg) = r then flagByte f else s.readReg r := by
  unfold State.writeRF
  cases s.params.vfPriority
  · simp only [State.readReg_writeFlag, State.readReg_writeReg]
  · simp only [State.readReg_writeReg, State.readReg_writeFlag]

theorem State.readReg_loadUpTo (s : State) (x r : Reg) :
    (s.loadUpTo x).readReg r = if r.val ≤ x.val then s.readByte (s.operandAddr r.val) else s.readReg r := by
  simp [State.readReg, State.loadUpTo]

/-- A register reads the same wherever the register file is the same. -/
theorem State.readReg_congr {s t : State} (h : t.regs = s.regs) (r : Reg) : t.readReg r = s.readReg r := by
  simp only [State.readReg, h]

/-! ### Reduction modulo 4096 -/

theorem wrapAddr_toNat (v : Word) : (wrapAddr v).toNat = v.toNat % 4096 := by
  simp [wrapAddr, BitVec.toNat_umod]

theorem wrapAddr_lt (v : Word) : (wrapAddr v).toNat < 4096 := by
  rw [wrapAddr_toNat]; exact Nat.mod_lt _ (by decide)

@[simp] theorem wrapAddr_idem (v : Word) : wrapAddr (wrapAddr v) = wrapAddr v := by
  apply BitVec.eq_of_toNat_eq; simp [wrapAddr_toNat]

theorem wrapAddr_of_lt (v : Word) (h : v.toNat < 4096) : wrapAddr v = v := by
  apply BitVec.eq_of_toNat_eq; rw [wrapAddr_toNat, Nat.mod_eq_of_lt h]

theorem State.nextPc_toNat (s : State) : s.nextPc.toNat = (s.pc.toNat + 2) % 4096 := by
  simp only [State.nextPc, wrapAddr_toNat, BitVec.toNat_add, BitVec.toNat_ofNat]; omega

theorem State.skipPc_toNat (s : State) : s.skipPc.toNat = (s.pc.toNat + 4) % 4096 := by
  simp only [State.skipPc, wrapAddr_toNat, BitVec.toNat_add, BitVec.toNat_ofNat]; omega

/-- A 12-bit address is below 4096, so writing it to `pc` or `I` writes it as it is. -/
theorem wrapAddr_address (nnn : BitVec 12) : wrapAddr (address nnn) = address nnn := by
  apply wrapAddr_of_lt
  have := nnn.isLt
  simp only [address, BitVec.toNat_setWidth]; omega

theorem address_toNat (nnn : BitVec 12) : (address nnn).toNat = nnn.toNat := by
  have := nnn.isLt
  simp only [address, BitVec.toNat_setWidth]; omega

/-- `advance` after an update that left `pc` alone is `pc <- next`. -/
theorem goesOn_advance {s u : State} (h : u.pc = s.pc) : goesOn s u.advance := by
  simp only [goesOn, State.advance_pc, wrapAddr_toNat, State.nextPc_toNat, h]; omega

/-- `skipIf` after an update that left `pc` alone is the conditional skip. -/
theorem skipsWhen_skipIf {s u : State} (c : Bool) (h : u.pc = s.pc) : skipsWhen (c = true) s (u.skipIf c) := by
  constructor <;> intro hc <;>
    simp only [State.skipIf_pc, hc, if_true, Bool.false_eq_true, if_false, wrapAddr_toNat, State.nextPc_toNat,
      State.skipPc_toNat, h] <;> omega

/-! ### Memory -/

/-- A byte reads the same wherever memory and `FONT` are the same. -/
theorem State.readByte_congr {s t : State} (hm : t.mem = s.mem) (hp : t.params = s.params) (a : Nat) :
    t.readByte a = s.readByte a := by
  simp only [State.readByte, hm, hp]

theorem State.readByte_writeByte (s : State) (a b : Nat) (v : Byte) :
    (s.writeByte a v).readByte b = if a % 4096 = b % 4096 then v else s.readByte b := by
  simp only [State.readByte, State.writeByte_mem, State.writeByte_params, Memory.read_write]

/-- Every address is reduced modulo 4096 at the access (R56). -/
theorem State.readByte_mod (s : State) (a : Nat) : s.readByte (a % 4096) = s.readByte a := by
  simp only [State.readByte, Nat.mod_mod]

/-- `writeBytes` leaves every byte outside its range alone. -/
theorem State.writeBytes_outside (s : State) (a : Nat) (vs : List Byte) :
    memoryOutside s (s.writeBytes a vs) a vs.length := by
  induction vs generalizing s a with
  | nil => intro b _; rfl
  | cons v vs ih =>
    intro b hb
    have h1 := ih (s.writeByte a v) (a + 1) b (fun k hk => by
      have := hb (k + 1) (by simpa using hk)
      rwa [show a + 1 + k = a + (k + 1) by omega])
    have h0 : b % 4096 ≠ a % 4096 := by simpa using hb 0 (by simp)
    rw [show State.writeBytes s a (v :: vs) = State.writeBytes (s.writeByte a v) (a + 1) vs from rfl, h1,
      State.readByte_writeByte, if_neg (Ne.symm h0)]

/-- `writeBytes` stores its bytes, while they do not meet themselves around the end of memory. -/
theorem State.writeBytes_inside (s : State) (a : Nat) (vs : List Byte) (hlen : vs.length ≤ 4096) (k : Nat)
    (hk : k < vs.length) : (s.writeBytes a vs).readByte (a + k) = vs[k] := by
  induction vs generalizing s a k with
  | nil => simp at hk
  | cons v vs ih =>
    simp only [List.length_cons] at hlen hk
    cases k with
    | zero =>
      rw [show State.writeBytes s a (v :: vs) = State.writeBytes (s.writeByte a v) (a + 1) vs from rfl,
        State.writeBytes_outside _ _ _ _ (fun j hj => by omega), State.readByte_writeByte]
      simp
    | succ k =>
      rw [show State.writeBytes s a (v :: vs) = State.writeBytes (s.writeByte a v) (a + 1) vs from rfl,
        show a + (k + 1) = a + 1 + k by omega, ih _ _ (by omega) k (by omega)]
      simp

theorem State.writeByte_wf (s : State) (a : Nat) (v : Byte) (h : Memory.wf s.params.font s.mem) :
    Memory.wf s.params.font (s.writeByte a v).mem :=
  Memory.write_wf _ _ _ _ (Nat.mod_lt _ (by decide)) h

theorem State.writeBytes_wf (s : State) (a : Nat) (vs : List Byte) (h : Memory.wf s.params.font s.mem) :
    Memory.wf s.params.font (s.writeBytes a vs).mem := by
  induction vs generalizing s a with
  | nil => exact h
  | cons v vs ih => exact ih (s.writeByte a v) (a + 1) (State.writeByte_wf s a v h)

/-- `State.reset` has memory in the canonical form. -/
theorem State.reset_wf : Memory.wf State.reset.params.font State.reset.mem := Memory.nil_wf _

/-! ### Pixels -/

theorem pixel_setPixel (fb : Framebuffer) (r c r' c' : Nat) (b : Bool) (hr : r < 32) (hc : c < 64) :
    pixel (setPixel fb r c b) r' c' = if r = r' ∧ c = c' then b else pixel fb r' c' := by
  unfold pixel setPixel
  simp only [hr, dif_pos]
  by_cases hr' : r' < 32
  · simp only [hr', dif_pos]
    rw [Vector.getElem_set]
    by_cases hrr : r = r'
    · subst hrr
      simp only [if_true, true_and]
      cases b
      · by_cases hcc : c = c'
        · subst hcc; simp [hc]
        · by_cases hc' : c' < 64
          · simp [hcc, hc', Ne.symm hcc]
          · simp [hcc, BitVec.getLsbD_of_ge _ _ (Nat.le_of_not_lt hc')]
      · by_cases hcc : c = c'
        · subst hcc; simp [hc]
        · simp [hcc]
    · simp [hrr]
  · have hne : r ≠ r' := by omega
    simp [hr', hne]

/-- Two framebuffers with the same pixels are the same. -/
theorem framebuffer_ext (fb fb' : Framebuffer) (h : ∀ r c, r < 32 → c < 64 → pixel fb r c = pixel fb' r c) : fb = fb' := by
  apply Vector.ext
  intro r hr
  apply BitVec.eq_of_getLsbD_eq
  intro c hc
  simpa [pixel, hr] using h r c hr hc

theorem pixel_clear (r c : Nat) : pixel clearFramebuffer r c = false := by
  unfold pixel clearFramebuffer
  split <;> simp

/-! ### Keys -/

/-- `lowestKey` answers the least held key (R173). -/
theorem lowestKey_eq_some (keys : BitVec 16) (k : Nat) :
    lowestKey keys = some k ↔ k < 16 ∧ keys.getLsbD k = true ∧ ∀ j, j < k → keys.getLsbD j = false := by
  unfold lowestKey
  rw [List.find?_range_eq_some]
  simp only [List.mem_range, Bool.not_eq_true']
  constructor
  · rintro ⟨h1, h2, h3⟩; exact ⟨h2, h1, h3⟩
  · rintro ⟨h1, h2, h3⟩; exact ⟨h2, h1, h3⟩

theorem lowestKey_eq_none (keys : BitVec 16) : lowestKey keys = none ↔ ∀ k, k < 16 → keys.getLsbD k = false := by
  simp [lowestKey, List.find?_eq_none]

/-! ### Frames -/

/-- An update that left the register file alone wrote no register. -/
theorem onlyWrites_of_regs {s t : State} (h : t.regs = s.regs) (l : List Reg) : onlyWrites s t l :=
  fun r _ => State.readReg_congr h r

/-- An update of one register wrote that register only. -/
theorem onlyWrites_of_set {s t : State} {x : Reg} {v : Byte} (h : t.regs = s.regs.set x.val v) : onlyWrites s t [x] := by
  intro r hr
  have hne : x.val ≠ r.val := fun e => hr (by simp [Fin.ext e])
  simp only [State.readReg, h, Vector.getElem_set, if_neg hne]

/-- Memory outside a stored range stays so through an update that leaves memory alone. -/
theorem memoryOutside_congr {s t u : State} {a n : Nat} (h : memoryOutside s t a n) (hm : u.mem = t.mem)
    (hp : u.params = t.params) : memoryOutside s u a n := fun b hb => by
  rw [State.readByte_congr hm hp]; exact h b hb

/-! ### Fatal entry -/

/-- "Nothing else changes" (R206). -/
theorem raiseFatal_changes (s : State) (c : Cause) (w : Word) : onlyChanges s (s.raiseFatal c w) [.latch] := by
  intro p hp
  cases p <;> simp_all [Part.same, State.readByte]

end Sys2Proof.Machine
end

