-- ==== Sys2Proof/Laws/Display.lean ====
section
/-!
SUPPORT. What the loop of the sprite draw does (R153): one law for the pixel, one for a row, one for the rows.
-/

namespace Sys2Proof.Machine

/-- The loop body changes the pixel it visits and no other. -/
theorem pixel_drawPixel (d : Drawing) (bit : Bool) (cx cy r c : Nat) (hr : r < 32) (hc : c < 64) :
    pixel (drawPixel d bit cx cy).fb r c = if cy = r ∧ cx = c then bit ^^ pixel d.fb cy cx else pixel d.fb r c := by
  unfold drawPixel
  split
  · next h => rw [pixel_setPixel _ _ _ _ _ _ h.2 h.1]
  · next h => rw [if_neg]; rintro ⟨rfl, rfl⟩; exact h ⟨hc, hr⟩

/-- The loop body records a collision inside the grid only (R155). -/
theorem hit_drawPixel (d : Drawing) (bit : Bool) (cx cy : Nat) :
    (drawPixel d bit cx cy).hit = true ↔
      d.hit = true ∨ (cx < 64 ∧ cy < 32 ∧ bit = true ∧ pixel d.fb cy cx = true) := by
  unfold drawPixel
  split
  · next h => simp [h.1, h.2]
  · next h => exact ⟨.inl, fun hd => hd.elim id fun e => absurd ⟨e.1, e.2.1⟩ h⟩

/-- The first `m` columns of a sprite row. -/
theorem drawColumns_spec (byte : Byte) (x0 cy : Nat) (m : Nat) (d : Drawing) :
    let e := (List.range m).foldl (fun acc col => drawPixel acc (byte.getLsbD (7 - col)) (x0 + col) cy) d
    (∀ r c, r < 32 → c < 64 → pixel e.fb r c =
      ((decide (r = cy ∧ x0 ≤ c ∧ c < x0 + m) && byte.getLsbD (7 - (c - x0))) ^^ pixel d.fb r c)) ∧
    (e.hit = true ↔ d.hit = true ∨
      ∃ c, c < 64 ∧ cy < 32 ∧ x0 ≤ c ∧ c < x0 + m ∧ byte.getLsbD (7 - (c - x0)) = true ∧ pixel d.fb cy c = true) := by
  induction m with
  | zero =>
    refine ⟨fun r c _ _ => ?_, .inl, fun h => h.elim id fun ⟨c, _, _, h1, h2, _⟩ => absurd h2 (by omega)⟩
    rw [decide_eq_false (by omega : ¬(r = cy ∧ x0 ≤ c ∧ c < x0 + 0))]; simp
  | succ m ih =>
    obtain ⟨h1, h2⟩ := ih
    simp only [List.range_succ, List.foldl_append, List.foldl_cons, List.foldl_nil] at *
    constructor
    · intro r c hr hc
      rw [pixel_drawPixel _ _ _ _ _ _ hr hc]
      split
      · next h =>
        obtain ⟨rfl, rfl⟩ := h
        rw [h1 _ _ hr hc]; simp
      · next h =>
        rw [h1 _ _ hr hc]
        congr 2
        simp only [decide_eq_decide]
        constructor <;> rintro ⟨a, b, c'⟩ <;> refine ⟨a, b, ?_⟩ <;> omega
    · rw [hit_drawPixel, h2, or_assoc]
      apply or_congr_right
      constructor
      · rintro (⟨c, a1, a2, a3, a4, a5, a6⟩ | ⟨a1, a2, a3, a4⟩)
        · exact ⟨c, a1, a2, a3, by omega, a5, a6⟩
        · refine ⟨x0 + m, a1, a2, by omega, by omega, by simpa using a3, ?_⟩
          rw [h1 _ _ a2 a1] at a4; simpa using a4
      · rintro ⟨c, a1, a2, a3, a4, a5, a6⟩
        by_cases hc : c = x0 + m
        · subst hc
          refine .inr ⟨a1, a2, by simpa using a5, ?_⟩
          rw [h1 _ _ a2 a1]; simpa using a6
        · exact .inl ⟨c, a1, a2, a3, by omega, a5, a6⟩

/-- The bit of a sprite whose rows are `bytes`, drawn at column `x0`, row `cy`, that falls on row `r`, column `c`. -/
def rowsBit (bytes : List Byte) (x0 cy r c : Nat) : Bool :=
  decide (cy ≤ r ∧ r < cy + bytes.length ∧ x0 ≤ c ∧ c < x0 + 8) && (bytes.getD (r - cy) 0#8).getLsbD (7 - (c - x0))

/-- The first row of a sprite, and the rows below it. -/
theorem rowsBit_cons (b : Byte) (bs : List Byte) (x0 cy r c : Nat) :
    rowsBit (b :: bs) x0 cy r c =
      (rowsBit bs x0 (cy + 1) r c ^^ (decide (r = cy ∧ x0 ≤ c ∧ c < x0 + 8) && b.getLsbD (7 - (c - x0)))) := by
  unfold rowsBit
  simp only [List.length_cons]
  by_cases hr : r = cy
  · subst hr; simp
  · by_cases hh : cy + 1 ≤ r
    · have e1 : (cy ≤ r ∧ r < cy + (bs.length + 1) ∧ x0 ≤ c ∧ c < x0 + 8) ↔
          (cy + 1 ≤ r ∧ r < cy + 1 + bs.length ∧ x0 ≤ c ∧ c < x0 + 8) := by omega
      have e2 : r - cy = (r - (cy + 1)) + 1 := by omega
      simp only [e1, e2, List.getD_cons_succ, hr, false_and, decide_false, Bool.false_and, Bool.xor_false]
    · have hlt : ¬cy ≤ r := by omega
      simp [hh, hr, hlt]

/-- The rows of a sprite: each pixel of the grid is XORed with the bit that falls on it, and `hit` reports a pixel turned
off. -/
theorem drawRows_spec (x0 : Nat) (bytes : List Byte) (d : Drawing) (cy : Nat) :
    (∀ r c, r < 32 → c < 64 →
      pixel (drawRows d x0 cy bytes).fb r c = (rowsBit bytes x0 cy r c ^^ pixel d.fb r c)) ∧
    ((drawRows d x0 cy bytes).hit = true ↔ d.hit = true ∨
      ∃ r c, r < 32 ∧ c < 64 ∧ rowsBit bytes x0 cy r c = true ∧ pixel d.fb r c = true) := by
  induction bytes generalizing d cy with
  | nil =>
    have h0 : ∀ r c, rowsBit [] x0 cy r c = false := by intro r c; simp [rowsBit]
    simp [drawRows, h0]
  | cons b bs ih =>
    obtain ⟨h1, h2⟩ := ih (drawRow d b x0 cy) (cy + 1)
    obtain ⟨g1, g2⟩ := drawColumns_spec b x0 cy 8 d
    change ∀ r c, r < 32 → c < 64 → pixel (drawRow d b x0 cy).fb r c = _ at g1
    change (drawRow d b x0 cy).hit = true ↔ _ at g2
    have below : ∀ r c, rowsBit bs x0 (cy + 1) r c = true → r ≠ cy := by
      intro r c h; simp [rowsBit] at h; omega
    constructor
    · intro r c hr hc
      rw [drawRows, h1 r c hr hc, g1 r c hr hc, ← Bool.xor_assoc, ← rowsBit_cons]
    · rw [drawRows, h2, g2, or_assoc]
      apply or_congr_right
      constructor
      · rintro (⟨c, a1, a2, a3, a4, a5, a6⟩ | ⟨r, c, a1, a2, a3, a4⟩)
        · refine ⟨cy, c, a2, a1, ?_, a6⟩
          have hb : rowsBit bs x0 (cy + 1) cy c = false := by
            rw [← Bool.not_eq_true]; exact fun h => below _ _ h rfl
          rw [rowsBit_cons, hb]; simpa [a3, a4] using a5
        · have hne := below r c a3
          refine ⟨r, c, a1, a2, ?_, ?_⟩
          · rw [rowsBit_cons, a3]; simp [hne]
          · rw [g1 r c a1 a2] at a4; simpa [hne] using a4
      · rintro ⟨r, c, a1, a2, a3, a4⟩
        by_cases hr : r = cy
        · subst hr
          have hb : rowsBit bs x0 (r + 1) r c = false := by
            rw [← Bool.not_eq_true]; exact fun h => below _ _ h rfl
          rw [rowsBit_cons, hb] at a3
          simp at a3
          exact .inl ⟨c, a2, a1, a3.1.1, a3.1.2, a3.2, a4⟩
        · refine .inr ⟨r, c, a1, a2, ?_, ?_⟩
          · rw [rowsBit_cons] at a3; simpa [hr] using a3
          · rw [g1 r c a1 a2]; simpa [hr] using a4

/-- The rows the sprite fetch reads give the bits of `spriteBit`. -/
theorem rowsBit_readBytes (s : State) (x y : Reg) (n r c : Nat) :
    rowsBit (s.readBytes (s.operandAddr 0) n) (s.readReg x).toNat (s.readReg y).toNat r c = spriteBit s x y n r c := by
  have hlen : (s.readBytes (s.operandAddr 0) n).length = n := by simp [State.readBytes]
  unfold rowsBit spriteBit
  rw [hlen]
  by_cases h : (s.readReg y).toNat ≤ r ∧ r < (s.readReg y).toNat + n ∧ (s.readReg x).toNat ≤ c ∧ c < (s.readReg x).toNat + 8
  · have hlt : r - (s.readReg y).toNat < n := by omega
    simp only [h]
    congr 1
    simp [State.readBytes, hlt, State.operandAddr]
  · simp only [h, decide_false, Bool.false_and]

end Sys2Proof.Machine
end

