-- ==== Sys2Proof/Laws/Encoding.lean ====
section
/-!
SUPPORT. The small lemmas of the formats of R81: each field of a word built by a format is the operand it was built from.
-/

namespace Sys2Proof

theorem nibble_toFin (x : Reg) : (nibble x).toFin = x := by
  apply Fin.ext
  simp only [nibble, BitVec.toFin_ofNat, Fin.ofNat]
  exact Nat.mod_eq_of_lt x.isLt

theorem toNat_formatNNN (op : BitVec 4) (nnn : BitVec 12) : (formatNNN op nnn).toNat = op.toNat * 4096 + nnn.toNat := by
  simp only [formatNNN, BitVec.toNat_append]
  rw [← Nat.shiftLeft_add_eq_or_of_lt nnn.isLt, Nat.shiftLeft_eq]

theorem toNat_formatX (op : BitVec 4) (x : Reg) (sub : Byte) :
    (formatX op x sub).toNat = op.toNat * 4096 + x.val * 256 + sub.toNat := by
  have hx : (nibble x).toNat = x.val := by simp [nibble]
  simp only [formatX, BitVec.toNat_append, hx]
  rw [← Nat.shiftLeft_add_eq_or_of_lt (show x.val < 2 ^ 4 from x.isLt), ← Nat.shiftLeft_add_eq_or_of_lt sub.isLt]
  simp only [Nat.shiftLeft_eq]; omega

theorem toNat_formatXKK (op : BitVec 4) (x : Reg) (kk : Byte) :
    (formatXKK op x kk).toNat = op.toNat * 4096 + x.val * 256 + kk.toNat := toNat_formatX op x kk

theorem toNat_formatXYN (op : BitVec 4) (x y : Reg) (n : BitVec 4) :
    (formatXYN op x y n).toNat = op.toNat * 4096 + x.val * 256 + y.val * 16 + n.toNat := by
  have hx : (nibble x).toNat = x.val := by simp [nibble]
  have hy : (nibble y).toNat = y.val := by simp [nibble]
  simp only [formatXYN, BitVec.toNat_append, hx, hy]
  rw [← Nat.shiftLeft_add_eq_or_of_lt (show x.val < 2 ^ 4 from x.isLt),
    ← Nat.shiftLeft_add_eq_or_of_lt (show y.val < 2 ^ 4 from y.isLt), ← Nat.shiftLeft_add_eq_or_of_lt n.isLt]
  simp only [Nat.shiftLeft_eq]; omega

/-! ### Bits of a format (R81) -/

theorem getLsbD_formatNNN (op : BitVec 4) (nnn : BitVec 12) (i : Nat) :
    (formatNNN op nnn).getLsbD i = if i < 12 then nnn.getLsbD i else op.getLsbD (i - 12) := BitVec.getLsbD_append

theorem getLsbD_formatX (op : BitVec 4) (x : Reg) (sub : Byte) (i : Nat) :
    (formatX op x sub).getLsbD i =
      if i < 8 then sub.getLsbD i else if i - 8 < 4 then (nibble x).getLsbD (i - 8) else op.getLsbD (i - 8 - 4) := by
  simp only [← BitVec.getLsbD_append]; rfl

theorem getLsbD_formatXKK (op : BitVec 4) (x : Reg) (kk : Byte) (i : Nat) :
    (formatXKK op x kk).getLsbD i =
      if i < 8 then kk.getLsbD i else if i - 8 < 4 then (nibble x).getLsbD (i - 8) else op.getLsbD (i - 8 - 4) :=
  getLsbD_formatX op x kk i

theorem getLsbD_formatXYN (op : BitVec 4) (x y : Reg) (n : BitVec 4) (i : Nat) :
    (formatXYN op x y n).getLsbD i =
      if i < 4 then n.getLsbD i
      else if i - 4 < 4 then (nibble y).getLsbD (i - 4)
      else if i - 4 - 4 < 4 then (nibble x).getLsbD (i - 4 - 4)
      else op.getLsbD (i - 4 - 4 - 4) := by
  simp only [← BitVec.getLsbD_append]; rfl

/-! ### Fields as integers (R82) -/

theorem fieldI3_toNat (w : Word) : (fieldI3 w).toNat = w.toNat / 4096 := by
  have := w.isLt
  simp only [fieldI3, BitVec.extractLsb'_toNat, Nat.shiftRight_eq_div_pow]; omega

theorem fieldX_val (w : Word) : (fieldX w).val = w.toNat / 256 % 16 := by
  show (w.extractLsb' 8 4).toNat = _
  simp only [BitVec.extractLsb'_toNat, Nat.shiftRight_eq_div_pow]

theorem fieldY_val (w : Word) : (fieldY w).val = w.toNat / 16 % 16 := by
  show (w.extractLsb' 4 4).toNat = _
  simp only [BitVec.extractLsb'_toNat, Nat.shiftRight_eq_div_pow]

theorem fieldN_toNat (w : Word) : (fieldN w).toNat = w.toNat % 16 := by
  simp [fieldN, BitVec.extractLsb'_toNat]

theorem fieldKK_toNat (w : Word) : (fieldKK w).toNat = w.toNat % 256 := by
  simp [fieldKK, BitVec.extractLsb'_toNat]

theorem fieldNNN_toNat (w : Word) : (fieldNNN w).toNat = w.toNat % 4096 := by
  simp [fieldNNN, BitVec.extractLsb'_toNat]

/-- The bytes of a word put back together are the word (R55). -/
theorem wordOfBytes_high_low (w : Word) : wordOfBytes (highByte w) (lowByte w) = w := by
  apply BitVec.eq_of_getLsbD_eq
  intro i hi
  simp only [wordOfBytes, highByte, lowByte, BitVec.getLsbD_append, BitVec.getLsbD_extractLsb']
  split
  · next h => simp [h]
  · next h => simp [show i - 8 < 8 by omega, show 8 + (i - 8) = i by omega]

end Sys2Proof
end

