-- ==== Sys2Proof/Laws/PerInstr.lean ====
section
/-!
SUPPORT. Statements about every instruction, one lemma per constructor. `EncodesItsRow`: the word an instruction encodes to is
selected by the instruction's own row of the opcode map (R86).
-/

namespace Sys2Proof.Laws

theorem mask_formatNNN (op : BitVec 4) (nnn : BitVec 12) : formatNNN op nnn &&& 0xF000#16 = formatNNN op 0#12 := by
  apply BitVec.eq_of_getLsbD_eq; intro i hi
  simp only [BitVec.getLsbD_and, getLsbD_formatNNN]
  interval_cases i <;> simp

theorem mask_formatXKK (op : BitVec 4) (x : Reg) (kk : Byte) : formatXKK op x kk &&& 0xF000#16 = formatXKK op 0 0#8 := by
  apply BitVec.eq_of_getLsbD_eq; intro i hi
  simp only [BitVec.getLsbD_and, getLsbD_formatXKK]
  interval_cases i <;> simp [nibble]

theorem mask_formatXYN (op : BitVec 4) (x y : Reg) (n : BitVec 4) : formatXYN op x y n &&& 0xF000#16 = formatXYN op 0 0 0#4 := by
  apply BitVec.eq_of_getLsbD_eq; intro i hi
  simp only [BitVec.getLsbD_and, getLsbD_formatXYN]
  interval_cases i <;> simp [nibble]

theorem mask_formatX (op : BitVec 4) (x : Reg) (sub : Byte) : formatX op x sub &&& 0xF0FF#16 = formatX op 0 sub := by
  apply BitVec.eq_of_getLsbD_eq; intro i hi
  simp only [BitVec.getLsbD_and, getLsbD_formatX]
  interval_cases i <;> simp [nibble]

theorem mask_formatXY (op : BitVec 4) (x y : Reg) (n : BitVec 4) :
    formatXYN op x y n &&& 0xF00F#16 = formatXYN op 0 0 n := by
  apply BitVec.eq_of_getLsbD_eq; intro i hi
  simp only [BitVec.getLsbD_and, getLsbD_formatXYN]
  interval_cases i <;> simp [nibble]

/-- "the row is selected when `w AND mask = match`" (R86), for the word the instruction encodes to. -/
def EncodesItsRow.Statement (i : Instr) : Prop := rowSelects (tableRow i) (encode i) = true

theorem EncodesItsRow.cls : EncodesItsRow.Statement (.cls) := by
  unfold EncodesItsRow.Statement; decide
theorem EncodesItsRow.ret : EncodesItsRow.Statement (.ret) := by
  unfold EncodesItsRow.Statement; decide
theorem EncodesItsRow.jp (nnn : BitVec 12) : EncodesItsRow.Statement (.jp nnn) := by
  simp only [EncodesItsRow.Statement, rowSelects, tableRow, encode, mask_formatNNN]; decide
theorem EncodesItsRow.call (nnn : BitVec 12) : EncodesItsRow.Statement (.call nnn) := by
  simp only [EncodesItsRow.Statement, rowSelects, tableRow, encode, mask_formatNNN]; decide
theorem EncodesItsRow.seImm (x : Reg) (kk : Byte) : EncodesItsRow.Statement (.seImm x kk) := by
  simp only [EncodesItsRow.Statement, rowSelects, tableRow, encode, mask_formatXKK]; decide
theorem EncodesItsRow.sneImm (x : Reg) (kk : Byte) : EncodesItsRow.Statement (.sneImm x kk) := by
  simp only [EncodesItsRow.Statement, rowSelects, tableRow, encode, mask_formatXKK]; decide
theorem EncodesItsRow.seReg (x : Reg) (y : Reg) : EncodesItsRow.Statement (.seReg x y) := by
  simp only [EncodesItsRow.Statement, rowSelects, tableRow, encode, mask_formatXY]; decide
theorem EncodesItsRow.ldImm (x : Reg) (kk : Byte) : EncodesItsRow.Statement (.ldImm x kk) := by
  simp only [EncodesItsRow.Statement, rowSelects, tableRow, encode, mask_formatXKK]; decide
theorem EncodesItsRow.addImm (x : Reg) (kk : Byte) : EncodesItsRow.Statement (.addImm x kk) := by
  simp only [EncodesItsRow.Statement, rowSelects, tableRow, encode, mask_formatXKK]; decide
theorem EncodesItsRow.ldReg (x : Reg) (y : Reg) : EncodesItsRow.Statement (.ldReg x y) := by
  simp only [EncodesItsRow.Statement, rowSelects, tableRow, encode, mask_formatXY]; decide
theorem EncodesItsRow.orReg (x : Reg) (y : Reg) : EncodesItsRow.Statement (.orReg x y) := by
  simp only [EncodesItsRow.Statement, rowSelects, tableRow, encode, mask_formatXY]; decide
theorem EncodesItsRow.andReg (x : Reg) (y : Reg) : EncodesItsRow.Statement (.andReg x y) := by
  simp only [EncodesItsRow.Statement, rowSelects, tableRow, encode, mask_formatXY]; decide
theorem EncodesItsRow.xorReg (x : Reg) (y : Reg) : EncodesItsRow.Statement (.xorReg x y) := by
  simp only [EncodesItsRow.Statement, rowSelects, tableRow, encode, mask_formatXY]; decide
theorem EncodesItsRow.addReg (x : Reg) (y : Reg) : EncodesItsRow.Statement (.addReg x y) := by
  simp only [EncodesItsRow.Statement, rowSelects, tableRow, encode, mask_formatXY]; decide
theorem EncodesItsRow.sub (x : Reg) (y : Reg) : EncodesItsRow.Statement (.sub x y) := by
  simp only [EncodesItsRow.Statement, rowSelects, tableRow, encode, mask_formatXY]; decide
theorem EncodesItsRow.shr (x : Reg) (y : Reg) : EncodesItsRow.Statement (.shr x y) := by
  simp only [EncodesItsRow.Statement, rowSelects, tableRow, encode, mask_formatXY]; decide
theorem EncodesItsRow.subn (x : Reg) (y : Reg) : EncodesItsRow.Statement (.subn x y) := by
  simp only [EncodesItsRow.Statement, rowSelects, tableRow, encode, mask_formatXY]; decide
theorem EncodesItsRow.shl (x : Reg) (y : Reg) : EncodesItsRow.Statement (.shl x y) := by
  simp only [EncodesItsRow.Statement, rowSelects, tableRow, encode, mask_formatXY]; decide
theorem EncodesItsRow.sneReg (x : Reg) (y : Reg) : EncodesItsRow.Statement (.sneReg x y) := by
  simp only [EncodesItsRow.Statement, rowSelects, tableRow, encode, mask_formatXY]; decide
theorem EncodesItsRow.ldI (nnn : BitVec 12) : EncodesItsRow.Statement (.ldI nnn) := by
  simp only [EncodesItsRow.Statement, rowSelects, tableRow, encode, mask_formatNNN]; decide
theorem EncodesItsRow.rnd (x : Reg) (kk : Byte) : EncodesItsRow.Statement (.rnd x kk) := by
  simp only [EncodesItsRow.Statement, rowSelects, tableRow, encode, mask_formatXKK]; decide
theorem EncodesItsRow.drw (x : Reg) (y : Reg) (n : Nat) : EncodesItsRow.Statement (.drw x y n) := by
  simp only [EncodesItsRow.Statement, rowSelects, tableRow, encode, mask_formatXYN]; decide
theorem EncodesItsRow.skp (x : Reg) : EncodesItsRow.Statement (.skp x) := by
  simp only [EncodesItsRow.Statement, rowSelects, tableRow, encode, mask_formatX]; decide
theorem EncodesItsRow.sknp (x : Reg) : EncodesItsRow.Statement (.sknp x) := by
  simp only [EncodesItsRow.Statement, rowSelects, tableRow, encode, mask_formatX]; decide
theorem EncodesItsRow.ldVxDt (x : Reg) : EncodesItsRow.Statement (.ldVxDt x) := by
  simp only [EncodesItsRow.Statement, rowSelects, tableRow, encode, mask_formatX]; decide
theorem EncodesItsRow.ldVxK (x : Reg) : EncodesItsRow.Statement (.ldVxK x) := by
  simp only [EncodesItsRow.Statement, rowSelects, tableRow, encode, mask_formatX]; decide
theorem EncodesItsRow.ldDtVx (x : Reg) : EncodesItsRow.Statement (.ldDtVx x) := by
  simp only [EncodesItsRow.Statement, rowSelects, tableRow, encode, mask_formatX]; decide
theorem EncodesItsRow.ldStVx (x : Reg) : EncodesItsRow.Statement (.ldStVx x) := by
  simp only [EncodesItsRow.Statement, rowSelects, tableRow, encode, mask_formatX]; decide
theorem EncodesItsRow.addI (x : Reg) : EncodesItsRow.Statement (.addI x) := by
  simp only [EncodesItsRow.Statement, rowSelects, tableRow, encode, mask_formatX]; decide
theorem EncodesItsRow.ldF (x : Reg) : EncodesItsRow.Statement (.ldF x) := by
  simp only [EncodesItsRow.Statement, rowSelects, tableRow, encode, mask_formatX]; decide
theorem EncodesItsRow.ldB (x : Reg) : EncodesItsRow.Statement (.ldB x) := by
  simp only [EncodesItsRow.Statement, rowSelects, tableRow, encode, mask_formatX]; decide
theorem EncodesItsRow.storeRegs (x : Reg) : EncodesItsRow.Statement (.storeRegs x) := by
  simp only [EncodesItsRow.Statement, rowSelects, tableRow, encode, mask_formatX]; decide
theorem EncodesItsRow.loadRegs (x : Reg) : EncodesItsRow.Statement (.loadRegs x) := by
  simp only [EncodesItsRow.Statement, rowSelects, tableRow, encode, mask_formatX]; decide

end Sys2Proof.Laws
end

