-- ==== Sys2Proof/Tests/Slice0.lean ====
section
/-!
SUPPORT. The model's own tests. Expected results are those of spec/95_test_vectors.md, or worked out by hand from the
rule a test names; nothing here is a result of the model. The last part holds the witnesses: for every statement with
hypotheses, a concrete state and operands that meet them, clause by clause.
-/

set_option maxRecDepth 4000

namespace Sys2Proof.Tests

open Sys2Proof Sys2Proof.Machine

/-! ### Helpers: small states and one step -/

/-- The next state; `State.reset` where there is none. -/
def next : Host.Outcome State Fault Refusal → State
  | .next s => s
  | .fault _ => State.reset
  | .refused _ => State.reset

/-- Registers set one after the other. -/
def regs (l : List (Reg × Byte)) (s : State) : State := l.foldl (fun t p => t.writeReg p.1 p.2) s

/-- One `Step` on the word `w` placed at `pc`. -/
def run (w : Nat) (s : State) : State := next (step (s.withFetchWord 16 w))

/-- `I = 0x300` and the bytes there. -/
def at300 (bytes : List Byte) : State := (State.reset.setIndex 0x300#16).writeBytes 0x300 bytes

/-- A stack of depth `d`, its newest entry `top`. -/
def depth (d : Fin 17) (top : Word) : State :=
  { State.reset with sp := d, stack := State.reset.stack.set (d.val - 1) top (by omega) }

/-- The keys held. -/
def held (keys : BitVec 16) : State := State.reset.keysEvent keys

/-- The parameters other than the defaults. -/
def others (s : State) : State :=
  { s with params := { s.params with vfPriority := .result, shiftSource := .y } }

/-- The lit pixels of columns 0 to 15 of row `r`, as bits. -/
def rowBits (s : State) (r : Nat) : List Bool := (List.range 16).map (pixel s.fb r)

/-! ### WellFormed -/

/-- "There is no 16-row form" (R156): the one check, and a term it refuses. -/
theorem test_wellFormed_refuses_16_rows : Instr.wellFormed (.drw 1 2 16) = false := by decide

theorem test_wellFormed_accepts_15_rows : Instr.wellFormed (.drw 15 15 15) = true := by decide

/-! ### Decode: every constructor by a word written out from R81, R82 and R86 -/

/-- `0000 0000 1110 0000` and so on: families 0 to 4. -/
theorem test_decode_words_0_to_4 :
    decodeWord 0b0000000011100000#16 = .instr .cls ∧ decodeWord 0b0000000011101110#16 = .instr .ret ∧
    decodeWord 0b0001001000000000#16 = .instr (.jp 0x200#12) ∧ decodeWord 0b0010111111111111#16 = .instr (.call 0xFFF#12) ∧
    decodeWord 0b0011111100000000#16 = .instr (.seImm 15 0x00#8) ∧
    decodeWord 0b0100000000101010#16 = .instr (.sneImm 0 0x2A#8) := by decide

/-- Families 5, 6, 7, 9, A, C, D. -/
theorem test_decode_words_5_to_D :
    decodeWord 0b0101101010110000#16 = .instr (.seReg 10 11) ∧ decodeWord 0b0110101001111111#16 = .instr (.ldImm 10 0x7F#8) ∧
    decodeWord 0b0111000111111111#16 = .instr (.addImm 1 0xFF#8) ∧ decodeWord 0b1001000000010000#16 = .instr (.sneReg 0 1) ∧
    decodeWord 0b1010000100100011#16 = .instr (.ldI 0x123#12) ∧ decodeWord 0b1100000011111111#16 = .instr (.rnd 0 0xFF#8) ∧
    decodeWord 0b1101000100101111#16 = .instr (.drw 1 2 15) := by decide

/-- Family 8. -/
theorem test_decode_words_8 :
    decodeWord 0b1000000000010000#16 = .instr (.ldReg 0 1) ∧ decodeWord 0b1000000000010001#16 = .instr (.orReg 0 1) ∧
    decodeWord 0b1000000000010010#16 = .instr (.andReg 0 1) ∧ decodeWord 0b1000000000010011#16 = .instr (.xorReg 0 1) ∧
    decodeWord 0b1000101010110100#16 = .instr (.addReg 10 11) ∧ decodeWord 0b1000000000010101#16 = .instr (.sub 0 1) ∧
    decodeWord 0b1000000100000110#16 = .instr (.shr 1 0) ∧ decodeWord 0b1000111111110111#16 = .instr (.subn 15 15) ∧
    decodeWord 0b1000000100101110#16 = .instr (.shl 1 2) := by decide

/-- Families E and F. -/
theorem test_decode_words_E_F :
    decodeWord 0b1110111110011110#16 = .instr (.skp 15) ∧ decodeWord 0b1110000010100001#16 = .instr (.sknp 0) ∧
    decodeWord 0b1111000100000111#16 = .instr (.ldVxDt 1) ∧ decodeWord 0b1111000000001010#16 = .instr (.ldVxK 0) ∧
    decodeWord 0b1111000000010101#16 = .instr (.ldDtVx 0) ∧ decodeWord 0b1111010100011000#16 = .instr (.ldStVx 5) ∧
    decodeWord 0b1111000000011110#16 = .instr (.addI 0) ∧ decodeWord 0b1111000000101001#16 = .instr (.ldF 0) ∧
    decodeWord 0b1111000000110011#16 = .instr (.ldB 0) ∧ decodeWord 0b1111000101010101#16 = .instr (.storeRegs 1) ∧
    decodeWord 0b1111111101100101#16 = .instr (.loadRegs 15) := by decide

/-- Illegal words of 95_test_vectors.md section 2.1, next to legal ones: families 0 and 5. -/
theorem test_decode_illegal_0_5 :
    ([0x0000, 0x00E1, 0x00ED, 0x01E0, 0x5011, 0x500F] : List Word).all (fun w => decide (decodeWord w = .unsupported w)) = true := by decide

/-- Families 8, 9, B. -/
theorem test_decode_illegal_8_9_B :
    ([0x8008, 0x812D, 0x812F, 0x9231, 0xB000, 0xBFFF] : List Word).all (fun w => decide (decodeWord w = .unsupported w)) = true := by decide

/-- Family E. -/
theorem test_decode_illegal_E :
    ([0xE000, 0xE09D, 0xE09F, 0xE0A0, 0xE0A2, 0xEFFF] : List Word).all (fun w => decide (decodeWord w = .unsupported w)) = true := by decide

/-- Family F. -/
theorem test_decode_illegal_F :
    ([0xF000, 0xF006, 0xF00B, 0xF016, 0xF054, 0xF066, 0xF0FF] : List Word).all (fun w => decide (decodeWord w = .unsupported w)) = true := by decide

/-- `w = 0x8AB4` has the bytes `8A B4`, high byte first (R55, R80). -/
theorem test_decode_bytes :
    decodeBytes [0x8A#8, 0xB4#8, 0x12#8] = .instr (.addReg 10 11) [0x12#8] ∧
    decodeBytes [0xB4#8, 0x8A#8] = .unsupported 0xB48A#16 [] ∧ decodeBytes [0x8A#8] = .truncated [0x8A#8] ∧
    encodeBytes (.addReg 10 11) = [0x8A#8, 0xB4#8] ∧ decodeTableWord 16 0x8AB4 = some (.addReg 10 11) := by decide

/-! ### Fetch (95_test_vectors.md section 2.2) -/

/-- `pc = 0xFFF`: the second byte comes from `0x000`. -/
theorem test_fetch_wraps : (run 0x1234 (State.reset.setPc 0xFFF#16)).pc = 0x234#16 := by decide

/-- `pc = 0xFFF`, default font: `w = 0x60F0`. -/
theorem test_fetch_font :
    let t := next (step ((State.reset.setPc 0xFFF#16).writeByte 0xFFF 0x60#8))
    t.readReg 0 = 0xF0#8 ∧ t.pc = 0x001#16 := by decide

/-- An odd `pc` is no error (R58). -/
theorem test_fetch_odd : (run 0x602A (State.reset.setPc 0x201#16)).pc = 0x203#16 := by decide

/-! ### Control transfer (section 2.3) -/

theorem test_jp : (run 0x1ABC State.reset).pc = 0xABC#16 := by decide
theorem test_jp_self : run 0x1200 State.reset = State.reset.withFetchWord 16 0x1200 := by decide

theorem test_call :
    let t := run 0x220C (State.reset.setPc 0x204#16)
    t.stack[0] = 0x0206#16 ∧ t.sp = 1 ∧ t.pc = 0x20C#16 := by decide
theorem test_call_at_top :
    let t := run 0x2300 ((depth 3 0).setPc 0xFFE#16)
    t.stack[3] = 0x0000#16 ∧ t.sp = 4 ∧ t.pc = 0x300#16 := by decide

theorem test_ret : let t := run 0x00EE (depth 16 0x0ABC#16); t.pc = 0xABC#16 ∧ t.sp = 15 := by decide
theorem test_ret_keeps_entry : (run 0x00EE (depth 1 0x0206#16)).stack[0] = 0x0206#16 := by decide

theorem test_seImm_skips : (run 0x3100 (State.reset.setPc 0x208#16)).pc = 0x20C#16 := by decide
theorem test_seImm_goes_on : (run 0x3100 (regs [(1, 0x04#8)] (State.reset.setPc 0x208#16))).pc = 0x20A#16 := by decide
theorem test_sneImm_goes_on : (run 0x402A (regs [(0, 0x2A#8)] (State.reset.setPc 0x300#16))).pc = 0x302#16 := by decide
theorem test_sneImm_skips : (run 0x402B (regs [(0, 0x2A#8)] (State.reset.setPc 0x300#16))).pc = 0x304#16 := by decide
theorem test_seReg_skips : (run 0x5230 (regs [(2, 7#8), (3, 7#8)] (State.reset.setPc 0x210#16))).pc = 0x214#16 := by decide
theorem test_seReg_goes_on : (run 0x5230 (regs [(2, 7#8), (3, 8#8)] (State.reset.setPc 0x210#16))).pc = 0x212#16 := by decide
theorem test_sneReg_skips : (run 0x9230 (regs [(2, 7#8), (3, 8#8)] (State.reset.setPc 0x210#16))).pc = 0x214#16 := by decide
theorem test_sneReg_goes_on : (run 0x9440 State.reset).pc = 0x202#16 := by decide

/-! ### Immediates and random (section 2.4) -/

theorem test_ldImm : let t := run 0x6A7F State.reset; t.readReg 10 = 0x7F#8 ∧ t.pc = 0x202#16 := by decide
theorem test_addImm_wraps :
    let t := run 0x7001 (regs [(0, 0xFF#8), (15, 0xAB#8)] State.reset)
    t.readReg 0 = 0x00#8 ∧ t.readReg 15 = 0xAB#8 := by decide
theorem test_addImm_flag_register : (run 0x7F03 (regs [(15, 0x05#8)] State.reset)).readReg 15 = 0x08#8 := by decide
theorem test_ldI : (run 0xAFFF (State.reset.setIndex 0x123#16)).index = 0xFFF#16 := by decide

/-- `rnd` any: `0xC000` gives 0. -/
theorem test_rnd_mask_zero : (run 0xC000 (regs [(0, 0x55#8)] State.reset)).readReg 0 = 0x00#8 := by
  show Config.rnd 0 &&& 0#8 = 0#8; simp
theorem test_rnd_counts_draws : (run 0xC1F0 State.reset).draws = 1 := by decide

/-! ### ALU (section 2.5) -/

theorem test_ldReg : let t := run 0x8010 (regs [(0, 0x12#8), (1, 0x34#8)] State.reset)
    t.readReg 0 = 0x34#8 ∧ t.readReg 15 = 0x00#8 := by decide
theorem test_orReg : let t := run 0x8F31 (regs [(15, 0x55#8), (3, 0xAA#8)] State.reset); t.readReg 15 = 0xFF#8 := by decide
theorem test_andReg : let t := run 0x8012 (regs [(0, 0xF0#8), (1, 0x3C#8), (15, 0x07#8)] State.reset)
    t.readReg 0 = 0x30#8 ∧ t.readReg 15 = 0x07#8 := by decide
theorem test_xorReg : let t := run 0x8003 (regs [(0, 0x5A#8), (15, 0x07#8)] State.reset)
    t.readReg 0 = 0x00#8 ∧ t.readReg 15 = 0x07#8 := by decide
theorem test_addReg_carry : let t := run 0x8014 (regs [(0, 0xFF#8), (1, 0x02#8)] State.reset)
    t.readReg 0 = 0x01#8 ∧ t.readReg 1 = 0x02#8 ∧ t.readReg 15 = 1#8 := by decide
theorem test_addReg_old_flag_is_operand : let t := run 0x80F4 (regs [(0, 0x10#8), (15, 0x01#8)] State.reset)
    t.readReg 0 = 0x11#8 ∧ t.readReg 15 = 0x00#8 := by decide
theorem test_sub_flag : let t := run 0x8015 (regs [(0, 0x05#8), (1, 0x02#8)] State.reset)
    t.readReg 0 = 0x03#8 ∧ t.readReg 15 = 1#8 := by decide
theorem test_sub_equal : let t := run 0x8015 (regs [(0, 0x07#8), (1, 0x07#8), (15, 0x01#8)] State.reset)
    t.readReg 0 = 0x00#8 ∧ t.readReg 15 = 0#8 := by decide
theorem test_subn_wraps : let t := run 0x8017 (regs [(0, 0x05#8), (1, 0x02#8)] State.reset)
    t.readReg 0 = 0xFD#8 ∧ t.readReg 15 = 0#8 := by decide
theorem test_subn_flag_register : (run 0x8F27 (regs [(15, 0x05#8), (2, 0x09#8)] State.reset)).readReg 15 = 0x01#8 ∧
    (run 0x8F27 (others (regs [(15, 0x05#8), (2, 0x09#8)] State.reset))).readReg 15 = 0x04#8 := by decide
theorem test_shr_x : let t := run 0x8126 (regs [(1, 0x05#8), (2, 0x08#8)] State.reset)
    t.readReg 1 = 0x02#8 ∧ t.readReg 2 = 0x08#8 ∧ t.readReg 15 = 1#8 := by decide
theorem test_shr_y : let t := run 0x8126 (others (regs [(1, 0x05#8), (2, 0x08#8)] State.reset))
    t.readReg 1 = 0x04#8 ∧ t.readReg 2 = 0x08#8 ∧ t.readReg 15 = 0#8 := by decide
theorem test_shl_x : let t := run 0x812E (regs [(1, 0x81#8), (2, 0x40#8)] State.reset)
    t.readReg 1 = 0x02#8 ∧ t.readReg 15 = 1#8 := by decide
theorem test_shl_y : let t := run 0x812E (others (regs [(1, 0x81#8), (2, 0x40#8)] State.reset))
    t.readReg 1 = 0x80#8 ∧ t.readReg 15 = 0#8 := by decide

/-! ### Display (section 2.6) -/

theorem test_cls : let s := next (exec (.drw 1 2 1) (at300 [0xFF#8]))
    let t := run 0x00E0 (s.writeFlag true)
    rowBits t 0 = List.replicate 16 false ∧ t.readReg 15 = 0x01#8 ∧ t.pc = 0x204#16 := by decide

/-- Rows `FF 81 FF` at x = 60, y = 30: clipped at the right and at the bottom. -/
theorem test_drw_clips : let t := run 0xD123 (regs [(1, 60#8), (2, 30#8)] (at300 [0xFF#8, 0x81#8, 0xFF#8]))
    t.fb[30] = 0xF000000000000000#64 ∧ t.fb[31] = 0x1000000000000000#64 ∧ t.fb[0] = 0#64 ∧ t.readReg 15 = 0#8 := by decide

/-- One lit pixel under a set sprite bit is a collision; the other pixel is lit. -/
theorem test_drw_collides : let t := run 0xD121 { at300 [0xC0#8] with fb := setPixel clearFramebuffer 0 0 true }
    pixel t.fb 0 0 = false ∧ pixel t.fb 0 1 = true ∧ t.readReg 15 = 1#8 ∧ t.index = 0x300#16 := by decide

/-! ### Keyboard (section 2.7) -/

theorem test_skp_held : (run 0xE49E (regs [(4, 0x0A#8)] ((held 0x0400#16).setPc 0x220#16))).pc = 0x224#16 := by decide
theorem test_skp_not_held : (run 0xE49E (regs [(4, 0x0A#8)] ((held 0xFBFF#16).setPc 0x220#16))).pc = 0x222#16 := by decide
theorem test_sknp_held : (run 0xE4A1 (regs [(4, 0x0A#8)] ((held 0x0400#16).setPc 0x220#16))).pc = 0x222#16 := by decide
theorem test_sknp_not_held : (run 0xE4A1 (regs [(4, 0x0A#8)] (State.reset.setPc 0x220#16))).pc = 0x224#16 := by decide
theorem test_ldVxK_lowest : let t := run 0xF00A (held 0x0088#16); t.readReg 0 = 0x03#8 ∧ t.pc = 0x202#16 := by decide
theorem test_ldVxK_none : let s := (regs [(0, 0x55#8)] State.reset).withFetchWord 16 0xF00A
    next (step s) = s ∧ s.stepOutcome = some .awaitingInput := by decide

/-! ### Timers (section 2.8) -/

theorem test_ldVxDt : let t := run 0xF307 (State.reset.setDt 0x3C#8)
    t.readReg 3 = 0x3C#8 ∧ t.dt = 0x3C#8 ∧ t.pc = 0x202#16 := by decide
theorem test_ldDtVx : (run 0xF315 (regs [(3, 0xFF#8)] State.reset)).dt = 0xFF#8 := by decide
theorem test_ldStVx : (run 0xF318 (regs [(3, 0x02#8)] State.reset)).st = 0x02#8 := by decide
theorem test_tick : let t := next (step { (State.reset.setDt 3#8).setSt 0#8 with schedule := [.tick] })
    t.dt = 2#8 ∧ t.st = 0#8 ∧ t.pc = 0x200#16 ∧ t.schedule = [] := by decide

/-! ### Index register and memory (section 2.9) -/

theorem test_addI_wraps : let t := run 0xF01E (regs [(0, 0xFF#8), (15, 0x01#8)] (State.reset.setIndex 0xF80#16))
    t.index = 0x07F#16 ∧ t.readReg 15 = 0x01#8 := by decide
theorem test_ldF : (run 0xF029 (regs [(0, 0x10#8)] State.reset)).index = 0x050#16 ∧
    (run 0xF029 (regs [(0, 0xFF#8)] State.reset)).index = 0x4FB#16 := by decide
theorem test_ldB : (run 0xF033 (regs [(0, 0xFE#8)] (at300 []))).readBytes 0x300 3 = [2#8, 5#8, 4#8] := by decide
theorem test_ldB_wraps : let t := run 0xF033 (regs [(0, 0x7B#8)] (State.reset.setIndex 0xFFE#16))
    t.readByte 0xFFE = 1#8 ∧ t.readByte 0xFFF = 2#8 ∧ t.readByte 0x000 = 3#8 ∧ t.readByte 0x001 = 0x90#8 := by decide
theorem test_storeRegs : let t := run 0xF255 (regs [(0, 0x11#8), (1, 0x22#8), (2, 0x33#8), (3, 0x44#8)] (at300 []))
    t.readBytes 0x300 4 = [0x11#8, 0x22#8, 0x33#8, 0x00#8] ∧ t.index = 0x303#16 := by decide
theorem test_storeRegs_wraps : let t := run 0xF155 (regs [(0, 0xAA#8), (1, 0xBB#8)] (State.reset.setIndex 0xFFF#16))
    t.readByte 0xFFF = 0xAA#8 ∧ t.readByte 0x000 = 0xBB#8 ∧ t.index = 0x001#16 := by decide
theorem test_loadRegs : let t := run 0xF265 (regs [(3, 0x77#8)] (at300 [2#8, 5#8, 4#8, 9#8]))
    t.readReg 0 = 2#8 ∧ t.readReg 1 = 5#8 ∧ t.readReg 2 = 4#8 ∧ t.readReg 3 = 0x77#8 ∧ t.index = 0x303#16 := by decide
theorem test_loadRegs_font : let t := run 0xF465 State.reset
    t.readReg 0 = 0xF0#8 ∧ t.readReg 1 = 0x90#8 ∧ t.readReg 4 = 0xF0#8 ∧ t.index = 0x005#16 := by decide

/-! ### Fatal conditions and the host's events (section 2.10) -/

theorem test_unsupported : let s := (regs [(3, 0x77#8)] (State.reset.setPc 0x30A#16)).withFetchWord 16 0x834B
    let t := next (step s)
    t.run = .halted ∧ t.faultCause = 1#3 ∧ t.faultInstr = 0x834B#16 ∧ t.pc = 0x30A#16 ∧ t.readReg 3 = 0x77#8 ∧
    s.stepOutcome = some (.fatal 1#3) ∧ t.stepOutcome = some .halted := by decide
theorem test_overflow : let t := run 0x2400 ((depth 16 0).setPc 0x300#16)
    t.faultCause = 2#3 ∧ t.faultInstr = 0x2400#16 ∧ t.pc = 0x300#16 ∧ t.sp = 16 := by decide
theorem test_underflow : let t := run 0x00EE State.reset
    t.faultCause = 3#3 ∧ t.faultInstr = 0x00EE#16 ∧ t.pc = 0x200#16 := by decide
theorem test_first_step_after_reset : let t := next (step State.reset)
    t.run = .halted ∧ t.faultCause = 1#3 ∧ t.faultInstr = 0x0000#16 ∧ t.pc = 0x200#16 := by decide
theorem test_load_odd : let t := next (State.reset.hostEvent (.load [0x60#8]))
    t.readByte 0x200 = 0x60#8 ∧ t.readByte 0x201 = 0x00#8 ∧ t.fetch = 0x6000#16 := by decide
theorem test_diagnostic : (next (step State.reset)).diagnostic.map (fun d => (d.cause, d.faultInstr, d.pc)) =
    some (some .unsupportedInstruction, 0x0000#16, 0x200#16) ∧ State.reset.diagnostic = none := by decide
theorem test_reasons : Cause.reason .loadError = "program too large" ∧ Cause.ofCode 5#3 = none := by decide
set_option exponentiation.threshold 4096 in
/-- Lit pixels (60,30) and (60,31) have the indices 1980 and 2044 of the read port (program P3). -/
theorem test_fbOut : let s := State.reset.setFb (setPixel (setPixel clearFramebuffer 30 60 true) 31 60 true)
    s.fbOut.getLsbD 1980 = true ∧ s.fbOut.getLsbD 2044 = true ∧ s.fbOut.getLsbD 1981 = false := by decide
/-- A batch stops at the first `Step` that is not `Advanced` (R8). -/
theorem test_batch : (next (State.executeBatch 5 (State.reset.withFetchWord 16 0x6A7F))).run = .halted ∧
    next (State.executeBatch 0 State.reset) = State.reset := by decide

/-! ### Witnesses: the hypotheses of the statements are met, each clause at a boundary value -/

/-- EncodeAndDecodeAreInverse: a well-formed instruction with every operand at its maximum, and a word that decodes. -/
theorem witness_encodeAndDecode :
    Instr.wellFormed (.drw 15 15 15) = true ∧ decodeWord 0xDFFF#16 = .instr (.drw 15 15 15) := by decide

/-- DecodeFollowsTheOpcodeMap: a row and a word it selects; a word that no row selects. -/
theorem witness_decodeFollowsTheOpcodeMap :
    (0xF0FF#16, 0xF065#16) ∈ opcodeTable ∧ rowSelects (0xF0FF#16, 0xF065#16) 0xFF65#16 = true ∧
    ∀ row ∈ opcodeTable, rowSelects row 0xBFFF#16 = false := by
  refine ⟨by decide, by decide, fun row h => ?_⟩
  have hall : (opcodeTable.all fun r => !rowSelects r 0xBFFF#16) = true := by decide
  simpa using List.all_eq_true.1 hall row h

/-- A running machine about to execute `6A7F`. -/
def aboutToLoad : State := State.reset.withFetchWord 16 0x6A7F

/-- StepRunsTheDecodedInstruction, both clauses; EnvironmentIsNotWritten and SoundTimerIsNeverObserved, a `Step`. -/
theorem witness_stepRuns :
    aboutToLoad.run = .running ∧ aboutToLoad.schedule = [] ∧ decodeWord aboutToLoad.fetch = .instr (.ldImm 10 0x7F#8) ∧
    (aboutToLoad.setSchedule [.step]).run = .running ∧ (aboutToLoad.setSchedule [.step]).schedule = .step :: [] ∧
    decodeWord (aboutToLoad.setSchedule [.step]).fetch = .instr (.ldImm 10 0x7F#8) := by decide

theorem witness_step : step aboutToLoad = .next (aboutToLoad.writeReg 10 0x7F#8).advance := by rfl

/-- UnsupportedInstructionIsFatal; the first clause of FatalConditionsArePrecise; `Fatal` of OutcomeOfEveryStep. -/
theorem witness_unsupported :
    State.reset.run = .running ∧ State.reset.schedule = [] ∧ decodeWord State.reset.fetch = .unsupported 0x0000#16 ∧
    State.reset.stepOutcome = some (.fatal 1#3) := by decide

theorem witness_unsupported_step : step State.reset = .next (State.reset.raiseFatal .unsupportedInstruction 0x0000#16) := by
  rfl

/-- The full stack: `2400` with `SP = 16`. -/
def fullStack : State := (depth 16 0x0302#16).withFetchWord 16 0x2400

/-- FatalConditionsArePrecise, second clause; the full stack of CallPushesTheReturnAddress and SeventeenthCallIsFatal. -/
theorem witness_overflow : fullStack.run = .running ∧ fullStack.schedule = [] ∧ fullStack.sp.val = 16 ∧
    decodeWord fullStack.fetch = .instr (.call 0x400#12) ∧ fullStack.stepOutcome = some (.fatal 2#3) := by decide

theorem witness_overflow_step : step fullStack = .next (fullStack.raiseFatal .stackOverflow 0x2400#16) := by rfl

/-- The empty stack: `00EE` with `SP = 0`. -/
def emptyStack : State := State.reset.withFetchWord 16 0x00EE

/-- FatalConditionsArePrecise, third clause; the empty stack of ReturnPopsTheReturnAddress. -/
theorem witness_underflow : emptyStack.run = .running ∧ emptyStack.schedule = [] ∧ emptyStack.sp.val = 0 ∧
    decodeWord emptyStack.fetch = .instr .ret ∧ emptyStack.stepOutcome = some (.fatal 3#3) := by decide

theorem witness_underflow_step : step emptyStack = .next (emptyStack.raiseFatal .stackUnderflow 0x00EE#16) := by rfl

/-- A halted machine. -/
def halted : State := State.reset.raiseFatal .unsupportedInstruction 0x0000#16

/-- OutcomeOfEveryStep: `Halted` and `Advanced` (`Fatal` above, `AwaitingInput` below). -/
theorem witness_outcomes : halted.schedule = [] ∧ halted.stepOutcome = some .halted ∧ aboutToLoad.schedule = [] ∧
    aboutToLoad.stepOutcome = some .advanced := by decide

theorem witness_halted_step : step halted = .next halted := by rfl

/-- HaltIsSticky: halted, the one move that leaves the halt (and one that does not, above). -/
theorem witness_haltIsSticky : halted.run = .halted ∧
    step (halted.setSchedule [.reset]) = .next State.reset ∧ State.reset.run = .running := by
  refine ⟨rfl, rfl, rfl⟩

/-- EveryMoveKeepsTheInvariant: a state at the boundary of the invariant (`pc` and `I` at `0xFFF`, a full stack, a byte
of memory listed), running, and a halted one. -/
theorem witness_inv_running :
    ({ State.reset with pc := 0xFFF#16, index := 0xFFF#16, sp := 16, stack := Vector.replicate 16 0xFFF#16,
                        mem := [(0xFFF, 0x01#8)] } : State).Inv where
  pcRange := by decide
  indexRange := by decide
  stackRange := by intro k h; simp
  memoryForm := by decide
  latchRunning := fun _ => ⟨rfl, rfl⟩
  latchHalted := fun h => absurd h (by decide)

theorem witness_inv_halted : halted.Inv where
  pcRange := by decide
  indexRange := by decide
  stackRange := by intro k h; show ((Vector.replicate 16 0#16)[k]).toNat < 4096; simp
  memoryForm := by decide
  latchRunning := fun h => absurd (show RunState.halted = .running from h) (by decide)
  latchHalted := fun _ => ⟨.unsupportedInstruction, rfl⟩

/-- OnlyListedInstructionsWriteRegisters: `F365` does not write `x[4]`; `8014` does not write `x[1]`. -/
theorem witness_writesReg : writesReg (.loadRegs 3) 4 = false ∧ writesReg (.addReg 0 1) 1 = false ∧
    exec (.addReg 0 1) State.reset = .next (State.reset.writeRF 0 0#8 false).advance := by
  refine ⟨by decide, by decide, rfl⟩

/-- NextPcOfEveryInstruction: a completing instruction of each class, from a running state. -/
theorem witness_nextPc :
    pcClass .cls = .straight ∧ pcClass (.skp 0) = .skip ∧ pcClass (.ldVxK 0) = .waits ∧
    exec .cls State.reset = .next (State.reset.setFb clearFramebuffer).advance ∧
    exec (.seReg 0 0) State.reset = .next (State.reset.skipIf true) ∧
    exec (.ldVxK 0) (held 0x8000#16) = .next ((held 0x8000#16).writeReg 0 15#8).advance ∧
    exec (.ldVxK 0) State.reset = .next State.reset ∧
    exec (.jp 0xFFF#12) State.reset = .next (State.reset.setPc 0xFFF#16) ∧
    exec .ret (depth 1 0x206#16) = .next ((depth 1 0x206#16).pop.setPc 0x206#16) := by
  refine ⟨rfl, rfl, rfl, rfl, rfl, rfl, rfl, rfl, rfl⟩

/-- SkipsOnRegisters: a low nibble other than 0. -/
theorem witness_lowNibble : (0x1#4) ≠ 0x0#4 ∧ (0xF#4) ≠ 0x0#4 := by decide

/-- OnlyClearAndDrawChangePixels: a clear that changes pixels, a draw that does. -/
theorem witness_pixels :
    let lit := State.reset.setFb (setPixel clearFramebuffer 0 0 true)
    (next (exec .cls lit)).fb ≠ lit.fb ∧ (next (exec (.drw 1 2 1) (at300 [0x80#8]))).fb ≠ (at300 [0x80#8]).fb := by decide

/-- Both whole-machine clauses: a `Reset` changes pixels, a `Load` changes memory. -/
theorem witness_events_write :
    let lit := (State.reset.setFb (setPixel clearFramebuffer 0 0 true)).setSchedule [.reset]
    let loading := State.reset.setSchedule [.load [1#8]]
    (next (step lit)).fb ≠ lit.fb ∧ (next (step loading)).readByte 0x200 ≠ loading.readByte 0x200 := by decide

/-- OnlyStoresChangeMemory: `Fx33` and `Fx55` do. -/
theorem witness_stores :
    let s := regs [(0, 1#8)] State.reset
    (next (exec (.ldB 0) s)).readByte 2 ≠ s.readByte 2 ∧ (next (exec (.storeRegs 0) s)).readByte 0 ≠ s.readByte 0 := by decide

/-- OnlyListedInstructionsWriteSpecialRegisters: each register is written by a writer. -/
theorem witness_special :
    let s := regs [(0, 1#8)] State.reset
    (next (exec (.addI 0) s)).index ≠ s.index ∧ (next (exec (.ldDtVx 0) s)).dt ≠ s.dt ∧
    (next (exec (.ldStVx 0) s)).st ≠ s.st ∧ (next (exec (.call 0x300#12) s)).stack ≠ s.stack ∧
    (next (exec (.call 0x300#12) s)).sp ≠ s.sp ∧ (next (exec .ret (depth 1 0))).sp ≠ (depth 1 0).sp := by decide

/-- EnvironmentIsNotWritten, SoundTimerIsNeverObserved: a move that is not a `Step`. -/
theorem witness_move : step (State.reset.setSchedule [.setKeys 0xFFFF#16]) = .next (held 0xFFFF#16) := by rfl

/-- StoresReachTheNextFetch: at `pc = 0x200`, and where the address wraps. -/
theorem witness_storesReachTheNextFetch :
    1 ≤ (1 : Reg).val ∧ (State.reset.setIndex 0x202#16).index.toNat % 4096 = ((State.reset.setIndex 0x202#16).pc.toNat + 2) % 4096 ∧
    (State.reset.setPc 0xFFE#16).index.toNat % 4096 = ((State.reset.setPc 0xFFE#16).pc.toNat + 2) % 4096 := by decide

/-- LoadPlacesTheImage and LoadTooLargeIsFatal: the empty image, the largest, one byte more; a halted machine. -/
theorem witness_load : State.reset.run = .running ∧ ([] : List Byte).length ≤ 3584 ∧
    (List.replicate 3584 0xFF#8).length = 3584 ∧ 3584 < (List.replicate 3585 0xFF#8).length ∧ halted.run = .halted := by
  refine ⟨rfl, by decide, List.length_replicate, ?_, rfl⟩
  rw [List.length_replicate]; decide

/-- TickCountsDown: running, and halted. -/
theorem witness_tick : State.reset.run = .running ∧ halted.run = .halted := ⟨rfl, rfl⟩

/-- ResetFromAnyState: its ranges of addresses meet at 80. -/
theorem witness_reset : 79 < 80 ∧ 80 ≤ 80 ∧ 80 < 4096 ∧ (State.resetEvent halted).readByte 79 = 0x80#8 ∧
    (State.resetEvent halted).readByte 80 = 0#8 ∧ (State.resetEvent halted).readByte 4095 = 0#8 := by decide

/-- CallPushesTheReturnAddress and the last clause of ReturnPopsTheReturnAddress: the last call that fits. -/
theorem witness_call : (depth 15 0).sp.val < 16 ∧ State.reset.sp.val < 16 := by decide

/-- ReturnPopsTheReturnAddress: the deepest and the shallowest stack. -/
theorem witness_ret : 0 < (depth 16 0).sp.val ∧ 0 < (depth 1 0).sp.val := by decide

/-- ReturnWithEmptyStackIsFatal: instructions that are no call and no return, and the state they lead to. -/
theorem witness_emptyStack : State.reset.sp.val = 0 ∧ (∀ i ∈ [Instr.cls], (∀ nnn, i ≠ .call nnn) ∧ i ≠ .ret) ∧
    execAll [.cls] State.reset = .next (State.reset.setFb clearFramebuffer).advance := by
  refine ⟨rfl, fun i h => ?_, rfl⟩
  obtain rfl : i = .cls := by simpa using h
  exact ⟨by simp, by simp⟩

/-- SeventeenthCallIsFatal. -/
theorem witness_seventeenth : State.reset.sp.val = 0 ∧ State.reset.run = .running ∧
    (List.replicate 16 (0x200#12)).length = 16 := by decide

/-- ShiftsReportTheBitShiftedOut: both values of `SHIFT_SOURCE`; the clauses of `resultAndFlag`: both of `VF_PRIORITY`. -/
theorem witness_params :
    State.reset.params.shiftSource = .x ∧ (others State.reset).params.shiftSource = .y ∧
    State.reset.params.vfPriority = .flag ∧ (others State.reset).params.vfPriority = .result := by decide

/-- The two hypotheses of ShiftsReportTheBitShiftedOut together, for `SHIFT_SOURCE = y`, X = 0, Y = 1. -/
theorem witness_shift : let s := others (regs [(1, 0x81#8)] State.reset)
    (s.params.shiftSource = .x → 0x81#8 = s.readReg 0) ∧ (s.params.shiftSource = .y → 0x81#8 = s.readReg 1) := by decide

/-- The flag register as destination, both values of `VF_PRIORITY` (section 2.5, `8F14`). -/
theorem witness_flag_register :
    (run 0x8F14 (regs [(15, 0xF0#8), (1, 0x20#8)] State.reset)).readReg 15 = 0x01#8 ∧
    (run 0x8F14 (others (regs [(15, 0xF0#8), (1, 0x20#8)] State.reset))).readReg 15 = 0x10#8 := by decide

/-- DrawXorsTheSprite at the largest N; DrawOutsideTheGridDoesNothing, its clauses at their boundaries (N = 0 by `rfl`). -/
theorem witness_draw : (15 : Nat) < 16 ∧ 64 ≤ ((regs [(1, 0x40#8)] State.reset).readReg 1).toNat ∧
    32 ≤ ((regs [(2, 0x20#8)] State.reset).readReg 2).toNat ∧ ¬64 ≤ ((regs [(1, 0x3F#8)] State.reset).readReg 1).toNat := by
  decide

/-- DrawTwiceRestores: a clear framebuffer. -/
theorem witness_drawTwice : (1 : Reg) ≠ 15 ∧ (2 : Reg) ≠ 15 ∧ ∀ r c, r < 32 → c < 64 → pixel State.reset.fb r c = false := by
  refine ⟨by decide, by decide, fun r c hr _ => ?_⟩
  simp [pixel, State.reset, hr]

/-- SkipsOnKey: index 15; KeyIndexOutOfRangeIsADraw: 16 and 255. -/
theorem witness_keyIndex : ((regs [(4, 0x0F#8)] State.reset).readReg 4).toNat < 16 ∧
    16 ≤ ((regs [(4, 0x10#8)] State.reset).readReg 4).toNat ∧ 16 ≤ ((regs [(4, 0xFF#8)] State.reset).readReg 4).toNat := by decide

/-- KeyWaitStoresTheLowestKey: key 0, key 15, no key. -/
theorem witness_keyWait :
    ((held 0xFFFF#16).keys.getLsbD 0 = true ∧ ∀ j, j < 0 → (held 0xFFFF#16).keys.getLsbD j = false) ∧
    ((held 0x8000#16).keys.getLsbD 15 = true ∧ ∀ j, j < 15 → (held 0x8000#16).keys.getLsbD j = false) ∧
    ∀ k, k < 16 → (held 0#16).keys.getLsbD k = false := by decide

/-- A machine waiting at `F50A`. -/
def waiting : State := State.reset.withFetchWord 16 0xF50A

/-- WaitingIsARetry; `AwaitingInput` of OutcomeOfEveryStep. -/
theorem witness_waiting : waiting.run = .running ∧ waiting.schedule = [] ∧ decodeWord waiting.fetch = .instr (.ldVxK 5) ∧
    (∀ k, k < 16 → waiting.keys.getLsbD k = false) ∧ waiting.stepOutcome = some .awaitingInput := by decide

/-- The last clause of WaitingIsARetry: key 15 is the lowest held key. -/
theorem witness_waiting_key : (0x8000#16).getLsbD 15 = true ∧ ∀ j, j < 15 → (0x8000#16).getLsbD j = false := by decide

theorem witness_waiting_step : step waiting = .next waiting := by rfl

/-- StoreThenLoadNeedsTheIndexReloaded: `I = 0xFFF`; StoreRegistersAndMoveIndex and LoadRegistersAndMoveIndex: the last
register of the range and the first above it. -/
theorem witness_storeThenLoad : (State.reset.setIndex 0xFFF#16).index.toNat = (0xFFF#12).toNat ∧
    (15 : Reg).val ≤ (15 : Reg).val ∧ (14 : Reg).val < (15 : Reg).val := by decide

/-- FramebufferPortShowsEveryPixel: the last pixel. -/
theorem witness_fbOut : 31 < 32 ∧ 63 < 64 ∧ 31 * 64 + 63 = 2047 := by decide

end Sys2Proof.Tests
end

/-!
PROOFS. What one instruction and one `Step` can do (R9, R206), each said once, and from it the outcome of every `Step`.
-/

namespace Sys2Proof.Machine

/-! ### What an instruction does to the latch -/

/-- The state after `i` is executed in `s`, as the latch sees it: no fatal condition and the latch as it was, or the one
fatal condition a call (R203) or a return (R204) can raise. -/
inductive ExecEffect (i : Instr) (s : State) : State → Prop where
  | keepsLatch {t : State} (hlatch : Part.latch.same s t) : ExecEffect i s t
  | overflow (nnn : BitVec 12) (hi : i = .call nnn) (hsp : ¬ s.sp.val < 16) :
      ExecEffect i s (s.raiseFatal .stackOverflow (encode i))
  | underflow (hi : i = .ret) (hsp : ¬ 0 < s.sp.val) : ExecEffect i s (s.raiseFatal .stackUnderflow (encode i))

theorem execCall_effect (nnn : BitVec 12) (s : State) :
    ∃ t, execCall nnn s = .next t ∧ ExecEffect (.call nnn) s t := by
  unfold execCall
  split
  · exact ⟨_, rfl, .keepsLatch ⟨rfl, rfl, rfl⟩⟩
  · next hsp => exact ⟨_, rfl, .overflow nnn rfl hsp⟩

theorem execRet_effect (s : State) : ∃ t, execRet s = .next t ∧ ExecEffect .ret s t := by
  unfold execRet
  split
  · exact ⟨_, rfl, .keepsLatch ⟨rfl, rfl, rfl⟩⟩
  · next hsp => exact ⟨_, rfl, .underflow rfl hsp⟩

/-- The two answers of the key-wait (R173). -/
theorem execLdVxK_of_key {s : State} {k : Nat} (x : Reg) (hk : lowestKey s.keys = some k) :
    execLdVxK x s = .next (s.writeReg x (BitVec.ofNat 8 k)).advance := by
  simp only [execLdVxK, hk]

theorem execLdVxK_of_no_key {s : State} (x : Reg) (hk : lowestKey s.keys = none) : execLdVxK x s = .next s := by
  simp only [execLdVxK, hk]

theorem execLdVxK_effect (x : Reg) (s : State) : ∃ t, execLdVxK x s = .next t ∧ ExecEffect (.ldVxK x) s t := by
  cases hk : lowestKey s.keys with
  | some k => exact ⟨_, execLdVxK_of_key x hk, .keepsLatch ⟨rfl, rfl, rfl⟩⟩
  | none => exact ⟨_, execLdVxK_of_no_key x hk, .keepsLatch ⟨rfl, rfl, rfl⟩⟩

/-- Every instruction has a next state, and only a call and a return can raise a fatal condition. -/
theorem exec_next_effect (i : Instr) (s : State) : ∃ t, exec i s = .next t ∧ ExecEffect i s t := by
  cases i with
  | call nnn => exact execCall_effect nnn s
  | ret => exact execRet_effect s
  | ldVxK x => exact execLdVxK_effect x s
  | _ => exact ⟨_, rfl, .keepsLatch (by simp [Part.same])⟩

theorem exec_effect {i : Instr} {s t : State} (h : exec i s = .next t) : ExecEffect i s t := by
  obtain ⟨u, hu, heffect⟩ := exec_next_effect i s
  rw [h] at hu
  cases hu
  exact heffect

/-! ### The key-wait -/

theorem isKeyWait_iff (i : Instr) : isKeyWait i = true ↔ ∃ x, i = .ldVxK x := by
  cases i <;> simp [isKeyWait]

/-- The instruction at `pc` is `Fx0A` and no key is held (R9, R173). -/
def State.waitsForKey (s : State) : Prop :=
  (∃ x, decodeWord s.fetch = .instr (.ldVxK x)) ∧ ∀ k, k < 16 → s.keys.getLsbD k = false

theorem State.waitsForKey_iff {s : State} {i : Instr} (hdec : decodeWord s.fetch = .instr i) :
    s.waitsForKey ↔ isKeyWait i = true ∧ lowestKey s.keys = none := by
  simp only [State.waitsForKey, hdec, Decoded.instr.injEq, isKeyWait_iff, lowestKey_eq_none]

/-- "no state change at all" (R173). -/
theorem exec_of_waitsForKey {s : State} {i : Instr} (hdec : decodeWord s.fetch = .instr i) (hwait : s.waitsForKey) :
    exec i s = .next s := by
  obtain ⟨hi, hkeys⟩ := (State.waitsForKey_iff hdec).mp hwait
  obtain ⟨x, rfl⟩ := (isKeyWait_iff i).mp hi
  exact execLdVxK_of_no_key x hkeys

/-! ### The equations of a move, a `Step` and its outcome -/

theorem step_of_schedule_nil {s : State} (h : s.schedule = []) : step s = s.stepEvent := by
  simp only [step, State.move, h]

theorem State.stepEvent_of_halted {s : State} (h : s.run = .halted) : s.stepEvent = .next s := by
  simp only [State.stepEvent, h]

theorem State.stepEvent_of_instr {s : State} {i : Instr} (h : s.run = .running) (hdec : decodeWord s.fetch = .instr i) :
    s.stepEvent = exec i s := by
  simp only [State.stepEvent, h, State.cycle, hdec]

theorem State.stepEvent_of_unsupported {s : State} {w : Word} (h : s.run = .running)
    (hdec : decodeWord s.fetch = .unsupported w) : s.stepEvent = .next (s.raiseFatal .unsupportedInstruction w) := by
  simp only [State.stepEvent, h, State.cycle, hdec]

theorem State.stepOutcome_of_halted {s : State} (h : s.run = .halted) : s.stepOutcome = some .halted := by
  simp only [State.stepOutcome, h]

theorem State.stepOutcome_of_instr {s t : State} {i : Instr} (h : s.run = .running)
    (hdec : decodeWord s.fetch = .instr i) (hexec : exec i s = .next t) :
    s.stepOutcome = some (execOutcome i s t) := by
  simp only [State.stepOutcome, h, hdec, hexec]

theorem State.stepOutcome_of_unsupported {s : State} {w : Word} (h : s.run = .running)
    (hdec : decodeWord s.fetch = .unsupported w) :
    s.stepOutcome = some (.fatal Cause.unsupportedInstruction.code) := by
  simp only [State.stepOutcome, h, hdec]

theorem execOutcome_raiseFatal (i : Instr) (s : State) (c : Cause) (w : Word) :
    execOutcome i s (s.raiseFatal c w) = .fatal c.code := by
  simp [execOutcome]

theorem execOutcome_of_running {i : Instr} {s t : State} (ht : t.run = .running) :
    execOutcome i s t = if isKeyWait i ∧ lowestKey s.keys = none then .awaitingInput else .advanced := by
  simp [execOutcome, ht]

/-! ### What a `Step` does, by its outcome (R9) -/

/-- From `s` a `Step` with this outcome leads to this state. -/
inductive StepEffect (s : State) : State → StepOutcome → Prop where
  | halted (hrun : s.run = .halted) : StepEffect s s .halted
  | awaitingInput (hrun : s.run = .running) (hwait : s.waitsForKey) : StepEffect s s .awaitingInput
  | fatal (c : Cause) (w : Word) (hrun : s.run = .running) (hwait : ¬ s.waitsForKey) :
      StepEffect s (s.raiseFatal c w) (.fatal c.code)
  | advanced {i : Instr} {t : State} (hrun : s.run = .running) (hwait : ¬ s.waitsForKey)
      (hdec : decodeWord s.fetch = .instr i) (hexec : exec i s = .next t) (ht : t.run = .running) :
      StepEffect s t .advanced

theorem exec_stepEffect {i : Instr} {s t : State} (hrun : s.run = .running) (hdec : decodeWord s.fetch = .instr i)
    (hexec : exec i s = .next t) : StepEffect s t (execOutcome i s t) := by
  have hiff := State.waitsForKey_iff hdec
  by_cases hwait : s.waitsForKey
  · rw [exec_of_waitsForKey hdec hwait] at hexec
    cases hexec
    rw [execOutcome_of_running hrun, if_pos (hiff.mp hwait)]
    exact .awaitingInput hrun hwait
  · cases exec_effect hexec with
    | keepsLatch hlatch =>
      obtain ⟨hkeep, -, -⟩ := hlatch
      have ht : t.run = .running := hkeep.trans hrun
      rw [execOutcome_of_running ht, if_neg (mt hiff.mpr hwait)]
      exact .advanced hrun hwait hdec hexec ht
    | overflow => rw [execOutcome_raiseFatal]; exact .fatal _ _ hrun hwait
    | underflow => rw [execOutcome_raiseFatal]; exact .fatal _ _ hrun hwait

/-- Every `Step` has one of the four outcomes, and does what that outcome says. -/
theorem State.stepEvent_effect {s t : State} (h : s.stepEvent = .next t) :
    ∃ outcome, s.stepOutcome = some outcome ∧ StepEffect s t outcome := by
  cases hrun : s.run with
  | halted =>
    rw [State.stepEvent_of_halted hrun] at h
    cases h
    exact ⟨_, State.stepOutcome_of_halted hrun, .halted hrun⟩
  | running =>
    cases hdec : decodeWord s.fetch with
    | instr i =>
      rw [State.stepEvent_of_instr hrun hdec] at h
      exact ⟨_, State.stepOutcome_of_instr hrun hdec h, exec_stepEffect hrun hdec h⟩
    | unsupported w =>
      rw [State.stepEvent_of_unsupported hrun hdec] at h
      cases h
      have hwait : ¬ s.waitsForKey := by simp [State.waitsForKey, hdec]
      exact ⟨_, State.stepOutcome_of_unsupported hrun hdec, .fatal _ w hrun hwait⟩

section
variable {s t : State} {outcome : StepOutcome}

theorem StepEffect.eq_halted_iff (h : StepEffect s t outcome) : outcome = .halted ↔ s.run = .halted := by
  cases h <;> simp [*]

theorem StepEffect.eq_fatal_iff (h : StepEffect s t outcome) (code : BitVec 3) :
    outcome = .fatal code ↔ s.run = .running ∧ t.run = .halted ∧ t.faultCause = code := by
  cases h <;> simp [*]

theorem StepEffect.eq_awaitingInput_iff (h : StepEffect s t outcome) :
    outcome = .awaitingInput ↔ s.run = .running ∧ s.waitsForKey := by
  cases h <;> simp [*]

theorem StepEffect.exec_of_advanced (h : StepEffect s t .advanced) :
    ∃ i, decodeWord s.fetch = .instr i ∧ exec i s = .next t ∧ t.run = .running := by
  cases h with
  | advanced _ _ hdec hexec ht => exact ⟨_, hdec, hexec, ht⟩

theorem StepEffect.eq_of_halted (h : StepEffect s t .halted) : t = s := by cases h; rfl

theorem StepEffect.eq_of_awaitingInput (h : StepEffect s t .awaitingInput) : t = s := by cases h; rfl

/-- Fatal entry writes the latch and nothing else (R206). -/
theorem StepEffect.frame_of_fatal {code : BitVec 3} (h : StepEffect s t (.fatal code)) :
    t.pc = s.pc ∧ onlyWrites s t [] ∧ onlyChanges s t [.latch] := by
  cases h with
  | fatal c w => exact ⟨rfl, onlyWrites_of_regs rfl [], raiseFatal_changes s c w⟩

end

/-- Settles O10: each clause is read off the one effect that the outcome of the `Step` has. -/
theorem outcomeOfEveryStep : Obligations.OutcomeOfEveryStep := by
  intro s t hsched hstep
  rw [step_of_schedule_nil hsched] at hstep
  obtain ⟨outcome, hout, heffect⟩ := State.stepEvent_effect hstep
  rw [hout]
  simp only [Option.some.injEq]
  refine ⟨heffect.eq_halted_iff, heffect.eq_fatal_iff, heffect.eq_awaitingInput_iff, ?_, ?_, ?_, outcome, rfl⟩
  · rintro rfl; exact heffect.exec_of_advanced
  · rintro (rfl | rfl)
    · exact heffect.eq_of_halted
    · exact heffect.eq_of_awaitingInput
  · rintro code rfl; exact heffect.frame_of_fatal

end Sys2Proof.Machine

/-!
PROOFS. How an instruction leaves `pc` (R25), which instructions and events change pixels (R32), and the framebuffer port
(R33).
-/

namespace Sys2Proof.Machine

/-! ### The two answers of a call and of a return (R102, R103) -/

theorem execCall_of_room {s : State} (nnn : BitVec 12) (hsp : s.sp.val < 16) :
    execCall nnn s = .next ((s.push s.nextPc hsp).setPc (address nnn)) := dif_pos hsp

theorem execCall_of_full {s : State} (nnn : BitVec 12) (hsp : ¬ s.sp.val < 16) :
    execCall nnn s = .next (s.raiseFatal .stackOverflow (encode (.call nnn))) := dif_neg hsp

theorem execRet_of_live {s : State} (hsp : 0 < s.sp.val) : execRet s = .next (s.pop.setPc (s.top hsp)) := dif_pos hsp

theorem execRet_of_empty {s : State} (hsp : ¬ 0 < s.sp.val) :
    execRet s = .next (s.raiseFatal .stackUnderflow (encode .ret)) := dif_neg hsp

/-! ### How an instruction leaves `pc`, class by class (R25) -/

section
variable {i : Instr} {s t : State}

/-- A straight-line instruction writes other parts of the state and ends with `pc <- next`. -/
theorem exec_of_straight (hclass : pcClass i = .straight) (s : State) :
    ∃ u : State, exec i s = .next u.advance ∧ u.pc = s.pc := by
  cases i <;> simp only [pcClass, reduceCtorEq] at hclass <;> exact ⟨_, rfl, by simp⟩

/-- A conditional skip ends with the choice between `pc <- skip` and `pc <- next`. -/
theorem exec_of_skip (hclass : pcClass i = .skip) (s : State) :
    ∃ (u : State) (c : Bool), exec i s = .next (u.skipIf c) ∧ u.pc = s.pc := by
  cases i <;> simp only [pcClass, reduceCtorEq] at hclass <;> exact ⟨_, _, rfl, by simp⟩

theorem pcClass_eq_waits_iff : pcClass i = .waits ↔ ∃ x, i = .ldVxK x := by
  cases i <;> simp [pcClass]

theorem goesOn_of_straight (h : exec i s = .next t) (hclass : pcClass i = .straight) : goesOn s t := by
  obtain ⟨u, hu, hpc⟩ := exec_of_straight hclass s
  cases hu.symm.trans h
  exact goesOn_advance hpc

theorem goesOn_or_skips_of_skip (h : exec i s = .next t) (hclass : pcClass i = .skip) :
    goesOn s t ∨ t.pc.toNat = (s.pc.toNat + 4) % 4096 := by
  obtain ⟨u, c, hu, hpc⟩ := exec_of_skip hclass s
  cases hu.symm.trans h
  obtain ⟨hskip, hnext⟩ := skipsWhen_skipIf c hpc
  by_cases hc : c = true
  · exact .inr (hskip hc)
  · exact .inl (hnext hc)

theorem goesOn_of_key_held (h : exec i s = .next t) (hclass : pcClass i = .waits)
    (hkey : ∃ k, k < 16 ∧ s.keys.getLsbD k = true) : goesOn s t := by
  obtain ⟨x, rfl⟩ := pcClass_eq_waits_iff.mp hclass
  cases hk : lowestKey s.keys with
  | some k =>
    cases (execLdVxK_of_key x hk).symm.trans h
    exact goesOn_advance (State.writeReg_pc ..)
  | none =>
    obtain ⟨k, hlt, hheld⟩ := hkey
    simp [(lowestKey_eq_none s.keys).mp hk k hlt] at hheld

theorem eq_of_no_key_held (h : exec i s = .next t) (hclass : pcClass i = .waits)
    (hkeys : ∀ k, k < 16 → s.keys.getLsbD k = false) : t = s := by
  obtain ⟨x, rfl⟩ := pcClass_eq_waits_iff.mp hclass
  cases (execLdVxK_of_no_key x ((lowestKey_eq_none s.keys).mpr hkeys)).symm.trans h
  rfl

/-- `pc <- NNN` writes the 12-bit address as it is. -/
theorem State.setPc_address_toNat (s : State) (nnn : BitVec 12) : (s.setPc (address nnn)).pc.toNat = nnn.toNat := by
  rw [State.setPc_pc, wrapAddr_address, address_toNat]

theorem pc_of_jp {nnn : BitVec 12} (h : exec (.jp nnn) s = .next t) : t.pc.toNat = nnn.toNat := by
  cases h
  exact State.setPc_address_toNat ..

theorem pc_of_call {nnn : BitVec 12} (h : exec (.call nnn) s = .next t) (hsp : s.sp.val < 16) :
    t.pc.toNat = nnn.toNat := by
  cases (execCall_of_room nnn hsp).symm.trans h
  exact State.setPc_address_toNat ..

theorem pc_of_ret (h : exec .ret s = .next t) (hsp : 0 < s.sp.val) : t.pc.toNat = (s.top hsp).toNat % 4096 := by
  cases (execRet_of_live hsp).symm.trans h
  exact wrapAddr_toNat _

/-- An instruction that halts the block has raised its fatal condition, which leaves `pc` (R207). -/
theorem pc_of_exec_halts (h : exec i s = .next t) (hrun : s.run = .running) (ht : t.run = .halted) : t.pc = s.pc := by
  cases exec_effect h with
  | keepsLatch hlatch =>
    obtain ⟨hkeep, -, -⟩ := hlatch
    simp [hkeep, hrun] at ht
  | overflow => rfl
  | underflow => rfl

end

/-- Settles O15: one lemma for each class of R25, for each instruction that sets `pc`, and for the halt. -/
theorem nextPcOfEveryInstruction : Obligations.NextPcOfEveryInstruction := by
  intro i s t h
  refine ⟨goesOn_of_straight h, goesOn_or_skips_of_skip h, goesOn_of_key_held h, eq_of_no_key_held h, ?_, ?_, ?_,
    pc_of_exec_halts h⟩
  · rintro nnn rfl; exact pc_of_jp h
  · rintro nnn rfl hsp; exact pc_of_call h hsp
  · rintro hsp rfl; exact pc_of_ret h hsp

/-! ### Which instructions change pixels (R32) -/

/-- Every instruction but the clear and the sprite draw leaves the framebuffer. -/
theorem exec_keeps_fb {i : Instr} {s t : State} (h : exec i s = .next t) (hcls : i ≠ .cls)
    (hdrw : ∀ x y n, i ≠ .drw x y n) : t.fb = s.fb := by
  cases i with
  | cls => exact absurd rfl hcls
  | drw x y n => exact absurd rfl (hdrw x y n)
  | call nnn =>
    by_cases hsp : s.sp.val < 16
    · cases (execCall_of_room nnn hsp).symm.trans h; rfl
    · cases (execCall_of_full nnn hsp).symm.trans h; rfl
  | ret =>
    by_cases hsp : 0 < s.sp.val
    · cases (execRet_of_live hsp).symm.trans h; rfl
    · cases (execRet_of_empty hsp).symm.trans h; rfl
  | ldVxK x =>
    cases hk : lowestKey s.keys with
    | some k => cases (execLdVxK_of_key x hk).symm.trans h; rfl
    | none => cases (execLdVxK_of_no_key x hk).symm.trans h; rfl
  | _ => cases h; simp

theorem cls_or_drw_of_exec_fb_ne {i : Instr} {s t : State} (h : exec i s = .next t) (hfb : t.fb ≠ s.fb) :
    i = .cls ∨ ∃ x y n, i = .drw x y n := by
  by_contra hother
  simp only [not_or, not_exists] at hother
  obtain ⟨hcls, hdrw⟩ := hother
  exact hfb (exec_keeps_fb h hcls hdrw)

/-! ### Which events change pixels (R32) -/

@[simp] theorem State.tickEvent_fb (s : State) : s.tickEvent.fb = s.fb := by
  unfold State.tickEvent
  split <;> rfl

@[simp] theorem State.loadEvent_fb (s : State) (bytes : List Byte) : (s.loadEvent bytes).fb = s.fb := by
  unfold State.loadEvent
  split
  · split
    · rfl
    · exact State.writeBytes_fb ..
  · rfl

theorem State.resetEvent_fb (s : State) : s.resetEvent.fb = clearFramebuffer := rfl

/-- The instruction at `pc` is the clear or the sprite draw. -/
def State.drawsNext (s : State) : Prop :=
  decodeWord s.fetch = .instr .cls ∨ ∃ x y n, decodeWord s.fetch = .instr (.drw x y n)

/-- Of the outcomes of a `Step` only `Advanced` can change a pixel, and then by the instruction executed. -/
theorem State.drawsNext_of_stepEvent_fb_ne {s t : State} (h : s.stepEvent = .next t) (hfb : t.fb ≠ s.fb) :
    s.drawsNext := by
  obtain ⟨outcome, -, heffect⟩ := State.stepEvent_effect h
  cases heffect with
  | halted => exact absurd rfl hfb
  | awaitingInput => exact absurd rfl hfb
  | fatal c w => exact absurd rfl hfb
  | advanced _ _ hdec hexec =>
    obtain rfl | ⟨x, y, n, rfl⟩ := cls_or_drw_of_exec_fb_ne hexec hfb
    · exact .inl hdec
    · exact .inr ⟨x, y, n, hdec⟩

theorem State.drawsNext_or_reset_of_hostEvent_fb_ne {s t : State} {ev : HostEvent} (h : s.hostEvent ev = .next t)
    (hfb : t.fb ≠ s.fb) : s.drawsNext ∨ ev = .reset := by
  cases ev with
  | reset => exact .inr rfl
  | step => exact .inl (State.drawsNext_of_stepEvent_fb_ne h hfb)
  | load bytes => cases h; exact absurd (State.loadEvent_fb s bytes) hfb
  | tick => cases h; exact absurd (State.tickEvent_fb s) hfb
  | setKeys keys => cases h; exact absurd rfl hfb

theorem step_of_schedule_cons {s : State} {ev : HostEvent} {rest : List HostEvent} (h : s.schedule = ev :: rest) :
    step s = (s.setSchedule rest).hostEvent ev := by
  simp only [step, State.move, h]

theorem drawsNext_or_reset_of_step_fb_ne {s t : State} (h : step s = .next t) (hfb : t.fb ≠ s.fb) :
    s.drawsNext ∨ ∃ rest, s.schedule = .reset :: rest := by
  cases hsched : s.schedule with
  | nil =>
    rw [step_of_schedule_nil hsched] at h
    exact .inl (State.drawsNext_of_stepEvent_fb_ne h hfb)
  | cons ev rest =>
    rw [step_of_schedule_cons hsched] at h
    obtain hdraws | rfl := State.drawsNext_or_reset_of_hostEvent_fb_ne h hfb
    · exact .inl hdraws
    · exact .inr ⟨rest, rfl⟩

/-- Settles O16: the instructions that keep the framebuffer, then the events that keep it. -/
theorem onlyClearAndDrawChangePixels : Obligations.OnlyClearAndDrawChangePixels := by
  refine ⟨fun i s t => cls_or_drw_of_exec_fb_ne, fun s t h hfb => ?_, fun s => ⟨s.resetEvent, rfl, ?_⟩⟩
  · exact or_assoc.mp (drawsNext_or_reset_of_step_fb_ne h hfb)
  · rw [State.resetEvent_fb]; exact pixel_clear

/-! ### The framebuffer port (R33) -/

theorem getLsbD_foldl_or {α : Type} {w : Nat} (f : α → BitVec w) (l : List α) (init : BitVec w) (k : Nat) :
    (l.foldl (fun out a => out ||| f a) init).getLsbD k = (init.getLsbD k || l.any fun a => (f a).getLsbD k) := by
  induction l generalizing init with
  | nil => simp
  | cons a l ih => simp [ih, Bool.or_assoc]

/-- A row of 64 bits, moved to its place in the port, shows at the port's bit `r*64 + c` only when it is row `r`. -/
theorem getLsbD_rowInPort (row : BitVec 64) (r' r c : Nat) (hr : r < 32) (hc : c < 64) :
    (BitVec.shiftLeft (row.setWidth 2048) (64 * r')).getLsbD (r * 64 + c) = (decide (r' = r) && row.getLsbD c) := by
  change ((row.setWidth 2048) <<< (64 * r')).getLsbD (r * 64 + c) = _
  rw [BitVec.getLsbD_shiftLeft, BitVec.getLsbD_setWidth]
  obtain hlt | rfl | hgt := Nat.lt_trichotomy r' r
  · have hbeyond : row.getLsbD (r * 64 + c - 64 * r') = false := BitVec.getLsbD_of_ge _ _ (by omega)
    simp [hbeyond, hlt.ne]
  · have hbit : r' * 64 + c - 64 * r' = c := by omega
    have hin : r' * 64 + c < 2048 ∧ ¬ r' * 64 + c < 64 * r' ∧ c < 2048 := by omega
    simp [hbit, hin]
  · have hbelow : r * 64 + c < 64 * r' := by omega
    simp [hbelow, hgt.ne']

/-- Settles O45: bit `r*64 + c` of the port is the one row of the fold that reaches it. -/
theorem framebufferPortShowsEveryPixel : Obligations.FramebufferPortShowsEveryPixel := by
  intro s r c hr hc
  rw [State.fbOut, getLsbD_foldl_or, pixel, dif_pos hr, Bool.eq_iff_iff]
  simp only [getLsbD_rowInPort _ _ r c hr hc, BitVec.getLsbD_zero, Bool.false_or, List.any_eq_true, List.mem_finRange,
    true_and, Bool.and_eq_true, decide_eq_true_eq]
  constructor
  · rintro ⟨r', rfl, hbit⟩; exact hbit
  · exact fun hbit => ⟨⟨r, hr⟩, rfl, hbit⟩

end Sys2Proof.Machine

/-!
PROOFS. What fetch reads (R57), and which instructions and events change memory (R66).
-/

namespace Sys2Proof

theorem toNat_wordOfBytes (hi lo : Byte) : (wordOfBytes hi lo).toNat = hi.toNat * 256 + lo.toNat := by
  simp only [wordOfBytes, BitVec.toNat_append]
  rw [← Nat.shiftLeft_add_eq_or_of_lt lo.isLt, Nat.shiftLeft_eq]

end Sys2Proof

namespace Sys2Proof.Machine

/-- Settles O6: the fetched word is the two bytes in order, and a byte access reduces its address itself. -/
theorem fetchReadsTwoBytesHighFirst : Obligations.FetchReadsTwoBytesHighFirst := by
  intro s
  rw [State.readByte_mod, State.readByte_mod]
  exact toNat_wordOfBytes _ _

/-! ### What the instructions with two answers leave (R102, R103, R173) -/

section
variable {s t : State}

theorem exec_call_cases {nnn : BitVec 12} (h : exec (.call nnn) s = .next t) :
    (∃ hsp : s.sp.val < 16, t = (s.push s.nextPc hsp).setPc (address nnn)) ∨
      t = s.raiseFatal .stackOverflow (encode (.call nnn)) := by
  by_cases hsp : s.sp.val < 16
  · cases (execCall_of_room nnn hsp).symm.trans h; exact .inl ⟨hsp, rfl⟩
  · cases (execCall_of_full nnn hsp).symm.trans h; exact .inr rfl

theorem exec_ret_cases (h : exec .ret s = .next t) :
    (∃ hsp : 0 < s.sp.val, t = s.pop.setPc (s.top hsp)) ∨ t = s.raiseFatal .stackUnderflow (encode .ret) := by
  by_cases hsp : 0 < s.sp.val
  · cases (execRet_of_live hsp).symm.trans h; exact .inl ⟨hsp, rfl⟩
  · cases (execRet_of_empty hsp).symm.trans h; exact .inr rfl

theorem exec_ldVxK_cases {x : Reg} (h : exec (.ldVxK x) s = .next t) :
    (∃ k, lowestKey s.keys = some k ∧ t = (s.writeReg x (BitVec.ofNat 8 k)).advance) ∨
      lowestKey s.keys = none ∧ t = s := by
  cases hk : lowestKey s.keys with
  | some k => cases (execLdVxK_of_key x hk).symm.trans h; exact .inl ⟨k, rfl, rfl⟩
  | none => cases (execLdVxK_of_no_key x hk).symm.trans h; exact .inr ⟨rfl, rfl⟩

/-! ### Which instructions change memory (R59) -/

/-- Every instruction but `Fx33` and `Fx55` leaves every byte of memory. -/
theorem exec_keeps_memory {i : Instr} (h : exec i s = .next t) (hldB : ∀ x, i ≠ .ldB x)
    (hstore : ∀ x, i ≠ .storeRegs x) : Part.memory.same s t := by
  intro a
  cases i with
  | ldB x => exact absurd rfl (hldB x)
  | storeRegs x => exact absurd rfl (hstore x)
  | call nnn => obtain ⟨_, rfl⟩ | rfl := exec_call_cases h <;> rfl
  | ret => obtain ⟨_, rfl⟩ | rfl := exec_ret_cases h <;> rfl
  | ldVxK x => obtain ⟨_, _, rfl⟩ | ⟨_, rfl⟩ := exec_ldVxK_cases h <;> rfl
  | _ => cases h; simp

theorem ldB_or_storeRegs_of_exec_readByte_ne {i : Instr} {a : Nat} (h : exec i s = .next t)
    (hbyte : t.readByte a ≠ s.readByte a) : (∃ x, i = .ldB x) ∨ ∃ x, i = .storeRegs x := by
  by_contra hother
  simp only [not_or, not_exists] at hother
  obtain ⟨hldB, hstore⟩ := hother
  exact hbyte (exec_keeps_memory h hldB hstore a)

/-! ### Which events change memory (R66) -/

@[simp] theorem State.readByte_tickEvent (s : State) (a : Nat) : s.tickEvent.readByte a = s.readByte a := by
  unfold State.tickEvent
  split <;> rfl

/-- `Load` leaves a byte outside the image's range; an image that fits does not wrap into it (R244). -/
theorem State.readByte_loadEvent_of_outside {bytes : List Byte} {a : Nat} (ha : a < 4096)
    (hout : ¬ (0x200 ≤ a ∧ a < 0x200 + bytes.length)) : (s.loadEvent bytes).readByte a = s.readByte a := by
  unfold State.loadEvent
  split
  · split
    · rfl
    · exact State.writeBytes_outside s 0x200 bytes a fun k hk => by omega
  · rfl

/-- The instruction at `pc` is `Fx33` or `Fx55`. -/
def State.storesNext (s : State) : Prop :=
  (∃ x, decodeWord s.fetch = .instr (.ldB x)) ∨ ∃ x, decodeWord s.fetch = .instr (.storeRegs x)

/-- Of the outcomes of a `Step` only `Advanced` can change a byte, and then by the instruction executed. -/
theorem State.storesNext_of_stepEvent_readByte_ne {a : Nat} (h : s.stepEvent = .next t)
    (hbyte : t.readByte a ≠ s.readByte a) : s.storesNext := by
  obtain ⟨outcome, -, heffect⟩ := State.stepEvent_effect h
  cases heffect with
  | halted => exact absurd rfl hbyte
  | awaitingInput => exact absurd rfl hbyte
  | fatal c w => exact absurd rfl hbyte
  | advanced _ _ hdec hexec =>
    obtain ⟨x, rfl⟩ | ⟨x, rfl⟩ := ldB_or_storeRegs_of_exec_readByte_ne hexec hbyte
    · exact .inl ⟨x, hdec⟩
    · exact .inr ⟨x, hdec⟩

/-- The event can write the byte at `a`: a `Reset`, or a `Load` whose image lies on it (R66). -/
def HostEvent.coversByte (ev : HostEvent) (a : Nat) : Prop :=
  ev = .reset ∨ ∃ bytes, ev = .load bytes ∧ 0x200 ≤ a ∧ a < 0x200 + bytes.length

theorem State.storesNext_or_coversByte_of_hostEvent_readByte_ne {ev : HostEvent} {a : Nat}
    (h : s.hostEvent ev = .next t) (ha : a < 4096) (hbyte : t.readByte a ≠ s.readByte a) :
    s.storesNext ∨ ev.coversByte a := by
  cases ev with
  | reset => exact .inr (.inl rfl)
  | step => exact .inl (State.storesNext_of_stepEvent_readByte_ne h hbyte)
  | load bytes =>
    cases h
    have hin := not_imp_comm.mp (State.readByte_loadEvent_of_outside ha) hbyte
    exact .inr (.inr ⟨bytes, rfl, hin⟩)
  | tick => cases h; exact absurd (State.readByte_tickEvent s a) hbyte
  | setKeys keys => cases h; exact absurd rfl hbyte

theorem storesNext_or_coversByte_of_step_readByte_ne {a : Nat} (h : step s = .next t) (ha : a < 4096)
    (hbyte : t.readByte a ≠ s.readByte a) :
    s.storesNext ∨ ∃ ev rest, s.schedule = ev :: rest ∧ ev.coversByte a := by
  cases hsched : s.schedule with
  | nil =>
    rw [step_of_schedule_nil hsched] at h
    exact .inl (State.storesNext_of_stepEvent_readByte_ne h hbyte)
  | cons ev rest =>
    rw [step_of_schedule_cons hsched] at h
    exact (State.storesNext_or_coversByte_of_hostEvent_readByte_ne h ha hbyte).imp_right
      fun hcovers => ⟨ev, rest, rfl, hcovers⟩

end

/-- Settles O17: the instructions that keep memory, then the events that keep the byte. -/
theorem onlyStoresChangeMemory : Obligations.OnlyStoresChangeMemory := by
  refine ⟨fun i s t a => ldB_or_storeRegs_of_exec_readByte_ne, fun s t a h ha hbyte => ?_⟩
  obtain (hldB | hstore) | ⟨ev, rest, hsched, rfl | ⟨bytes, rfl, hin⟩⟩ :=
    storesNext_or_coversByte_of_step_readByte_ne h ha hbyte
  · exact .inl hldB
  · exact .inr (.inl hstore)
  · exact .inr (.inr (.inl ⟨rest, hsched⟩))
  · exact .inr (.inr (.inr ⟨bytes, rest, hsched, hin⟩))

end Sys2Proof.Machine

/-!
PROOFS. The word and its fields (R81, R82, R84) and the rows of the opcode map (R86): `Instr.withFieldsOf w i` is the
instruction of the row of `i` that the fields of `w` spell, and it is what `w` decodes to when that row selects `w`.
-/

namespace Sys2Proof

/-! ### The fields of a format (R81, R82) -/

@[simp] theorem fieldNNN_formatNNN (op : BitVec 4) (nnn : BitVec 12) : fieldNNN (formatNNN op nnn) = nnn := by
  apply BitVec.eq_of_toNat_eq
  rw [fieldNNN_toNat, toNat_formatNNN]; omega

@[simp] theorem fieldX_formatX (op : BitVec 4) (x : Reg) (sub : Byte) : fieldX (formatX op x sub) = x := by
  apply Fin.ext
  rw [fieldX_val, toNat_formatX]; omega

@[simp] theorem fieldX_formatXKK (op : BitVec 4) (x : Reg) (kk : Byte) : fieldX (formatXKK op x kk) = x :=
  fieldX_formatX op x kk

@[simp] theorem fieldKK_formatXKK (op : BitVec 4) (x : Reg) (kk : Byte) : fieldKK (formatXKK op x kk) = kk := by
  apply BitVec.eq_of_toNat_eq
  rw [fieldKK_toNat, toNat_formatXKK]; omega

@[simp] theorem fieldX_formatXYN (op : BitVec 4) (x y : Reg) (n : BitVec 4) : fieldX (formatXYN op x y n) = x := by
  apply Fin.ext
  rw [fieldX_val, toNat_formatXYN]; omega

@[simp] theorem fieldY_formatXYN (op : BitVec 4) (x y : Reg) (n : BitVec 4) : fieldY (formatXYN op x y n) = y := by
  apply Fin.ext
  rw [fieldY_val, toNat_formatXYN]; omega

@[simp] theorem fieldN_formatXYN (op : BitVec 4) (x y : Reg) (n : BitVec 4) : fieldN (formatXYN op x y n) = n := by
  apply BitVec.eq_of_toNat_eq
  rw [fieldN_toNat, toNat_formatXYN]; omega

/-! ### The format of a word's own fields -/

section
variable {w : Word} {op : BitVec 4}

theorem formatNNN_eq_of_fields (h3 : (fieldI3 w).toNat = op.toNat) : formatNNN op (fieldNNN w) = w := by
  apply BitVec.eq_of_toNat_eq
  rw [toNat_formatNNN, ← h3, fieldI3_toNat, fieldNNN_toNat]; omega

theorem formatX_eq_of_fields {sub : Byte} (h3 : (fieldI3 w).toNat = op.toNat) (hkk : fieldKK w = sub) :
    formatX op (fieldX w) sub = w := by
  apply BitVec.eq_of_toNat_eq
  rw [toNat_formatX, ← h3, ← hkk, fieldI3_toNat, fieldX_val, fieldKK_toNat]; omega

theorem formatXKK_eq_of_fields (h3 : (fieldI3 w).toNat = op.toNat) : formatXKK op (fieldX w) (fieldKK w) = w :=
  formatX_eq_of_fields h3 rfl

theorem formatXYN_eq_of_fields {n : BitVec 4} (h3 : (fieldI3 w).toNat = op.toNat) (hn : (fieldN w).toNat = n.toNat) :
    formatXYN op (fieldX w) (fieldY w) n = w := by
  apply BitVec.eq_of_toNat_eq
  rw [toNat_formatXYN, ← h3, ← hn, fieldI3_toNat, fieldX_val, fieldY_val, fieldN_toNat]; omega

end

/-! ### What decoding gives, encoded again -/

/-- The decoded word is `w`: the instruction is well-formed and encodes to `w`, or `w` was kept unsupported. -/
def Decoded.Spells (w : Word) : Decoded → Prop
  | .instr i => i.wellFormed = true ∧ encode i = w
  | .unsupported w' => w' = w

theorem decodeFamily0_spells (w : Word) : (decodeFamily0 w).Spells w := by
  unfold decodeFamily0
  split_ifs with hcls hret
  · exact ⟨rfl, hcls.symm⟩
  · exact ⟨rfl, hret.symm⟩
  · rfl

theorem decodeFamily8_spells {w : Word} (h3 : (fieldI3 w).toNat = 0x8) : (decodeFamily8 w).Spells w := by
  unfold decodeFamily8
  split
  case h_10 => rfl
  all_goals next hn => exact ⟨rfl, formatXYN_eq_of_fields h3 hn⟩

theorem decodeFamilyE_spells {w : Word} (h3 : (fieldI3 w).toNat = 0xE) : (decodeFamilyE w).Spells w := by
  unfold decodeFamilyE
  split_ifs with hskp hsknp
  · exact ⟨rfl, formatX_eq_of_fields h3 hskp⟩
  · exact ⟨rfl, formatX_eq_of_fields h3 hsknp⟩
  · rfl

theorem decodeFamilyF_spells {w : Word} (h3 : (fieldI3 w).toNat = 0xF) : (decodeFamilyF w).Spells w := by
  unfold decodeFamilyF
  iterate 9
    split
    · next hkk => exact ⟨rfl, formatX_eq_of_fields h3 hkk⟩
  rfl

/-- The goals stand in the order of the families, the illegal ones last. -/
theorem decodeWord_spells (w : Word) : (decodeWord w).Spells w := by
  unfold decodeWord
  split
  next => exact decodeFamily0_spells w
  next h3 => exact ⟨rfl, formatNNN_eq_of_fields h3⟩
  next h3 => exact ⟨rfl, formatNNN_eq_of_fields h3⟩
  next h3 => exact ⟨rfl, formatXKK_eq_of_fields h3⟩
  next h3 => exact ⟨rfl, formatXKK_eq_of_fields h3⟩
  next h3 =>
    split_ifs with hn
    · exact ⟨rfl, formatXYN_eq_of_fields h3 (congrArg BitVec.toNat hn)⟩
    · rfl
  next h3 => exact ⟨rfl, formatXKK_eq_of_fields h3⟩
  next h3 => exact ⟨rfl, formatXKK_eq_of_fields h3⟩
  next h3 => exact decodeFamily8_spells h3
  next h3 =>
    split_ifs with hn
    · exact ⟨rfl, formatXYN_eq_of_fields h3 (congrArg BitVec.toNat hn)⟩
    · rfl
  next h3 => exact ⟨rfl, formatNNN_eq_of_fields h3⟩
  next h3 => exact ⟨rfl, formatXKK_eq_of_fields h3⟩
  next h3 =>
    refine ⟨decide_eq_true (fieldN w).isLt, formatXYN_eq_of_fields h3 ?_⟩
    exact (Nat.mod_eq_of_lt (fieldN w).isLt).symm
  next h3 => exact decodeFamilyE_spells h3
  next h3 => exact decodeFamilyF_spells h3
  next => rfl

/-! ### The instruction a row makes of a word (R86) -/

/-- The instruction of the same row whose operands are the fields of `w`. -/
def Instr.withFieldsOf (w : Word) : Instr → Instr
  | .cls => .cls
  | .ret => .ret
  | .jp _ => .jp (fieldNNN w)
  | .call _ => .call (fieldNNN w)
  | .seImm _ _ => .seImm (fieldX w) (fieldKK w)
  | .sneImm _ _ => .sneImm (fieldX w) (fieldKK w)
  | .seReg _ _ => .seReg (fieldX w) (fieldY w)
  | .ldImm _ _ => .ldImm (fieldX w) (fieldKK w)
  | .addImm _ _ => .addImm (fieldX w) (fieldKK w)
  | .ldReg _ _ => .ldReg (fieldX w) (fieldY w)
  | .orReg _ _ => .orReg (fieldX w) (fieldY w)
  | .andReg _ _ => .andReg (fieldX w) (fieldY w)
  | .xorReg _ _ => .xorReg (fieldX w) (fieldY w)
  | .addReg _ _ => .addReg (fieldX w) (fieldY w)
  | .sub _ _ => .sub (fieldX w) (fieldY w)
  | .shr _ _ => .shr (fieldX w) (fieldY w)
  | .subn _ _ => .subn (fieldX w) (fieldY w)
  | .shl _ _ => .shl (fieldX w) (fieldY w)
  | .sneReg _ _ => .sneReg (fieldX w) (fieldY w)
  | .ldI _ => .ldI (fieldNNN w)
  | .rnd _ _ => .rnd (fieldX w) (fieldKK w)
  | .drw _ _ _ => .drw (fieldX w) (fieldY w) (fieldN w).toNat
  | .skp _ => .skp (fieldX w)
  | .sknp _ => .sknp (fieldX w)
  | .ldVxDt _ => .ldVxDt (fieldX w)
  | .ldVxK _ => .ldVxK (fieldX w)
  | .ldDtVx _ => .ldDtVx (fieldX w)
  | .ldStVx _ => .ldStVx (fieldX w)
  | .addI _ => .addI (fieldX w)
  | .ldF _ => .ldF (fieldX w)
  | .ldB _ => .ldB (fieldX w)
  | .storeRegs _ => .storeRegs (fieldX w)
  | .loadRegs _ => .loadRegs (fieldX w)

@[simp] theorem tableRow_withFieldsOf (w : Word) (i : Instr) : tableRow (i.withFieldsOf w) = tableRow i := by
  cases i <;> rfl

theorem withFieldsOf_encode {i : Instr} (h : i.wellFormed = true) : i.withFieldsOf (encode i) = i := by
  cases i with
  | drw x y n =>
    have hn : n < 16 := of_decide_eq_true h
    simp [Instr.withFieldsOf, encode, Nat.mod_eq_of_lt hn]
  | _ => simp [Instr.withFieldsOf, encode]

theorem tableRow_mem_opcodeTable (i : Instr) : tableRow i ∈ opcodeTable := by
  have hrep : i.withFieldsOf 0 ∈ rowRepresentatives := by
    cases i <;> simp only [Instr.withFieldsOf] <;> decide
  exact tableRow_withFieldsOf 0 i ▸ List.mem_map_of_mem hrep

open Laws.EncodesItsRow in
theorem rowSelects_tableRow_encode (i : Instr) : rowSelects (tableRow i) (encode i) = true := by
  cases i
  exacts [cls, ret, jp _, call _, seImm _ _, sneImm _ _, seReg _ _, ldImm _ _, addImm _ _, ldReg _ _, orReg _ _,
    andReg _ _, xorReg _ _, addReg _ _, sub _ _, shr _ _, subn _ _, shl _ _, sneReg _ _, ldI _, rnd _ _, drw _ _ _,
    skp _, sknp _, ldVxDt _, ldVxK _, ldDtVx _, ldStVx _, addI _, ldF _, ldB _, storeRegs _, loadRegs _]

/-! ### The fields a selecting row fixes -/

section
variable {row : Word × Word} {w : Word}

theorem rowSelects_iff : rowSelects row w = true ↔ w &&& row.1 = row.2 := beq_iff_eq

/-- A selecting row fixes every field that its mask covers. -/
theorem extractLsb'_of_rowSelects {start len : Nat} (h : rowSelects row w = true)
    (hmask : row.1.extractLsb' start len = BitVec.allOnes len) :
    w.extractLsb' start len = row.2.extractLsb' start len := by
  rw [← rowSelects_iff.1 h, BitVec.extractLsb'_and, hmask, BitVec.and_allOnes]

theorem fieldI3_of_rowSelects (h : rowSelects row w = true) (hmask : fieldI3 row.1 = 0xF#4) :
    fieldI3 w = fieldI3 row.2 := extractLsb'_of_rowSelects h hmask

theorem fieldN_of_rowSelects (h : rowSelects row w = true) (hmask : fieldN row.1 = 0xF#4) :
    fieldN w = fieldN row.2 := extractLsb'_of_rowSelects h hmask

theorem fieldKK_of_rowSelects (h : rowSelects row w = true) (hmask : fieldKK row.1 = 0xFF#8) :
    fieldKK w = fieldKK row.2 := extractLsb'_of_rowSelects h hmask

theorem eq_of_rowSelects (h : rowSelects row w = true) (hmask : row.1 = BitVec.allOnes 16) : w = row.2 := by
  rw [← rowSelects_iff.1 h, hmask, BitVec.and_allOnes]

end

theorem fieldI3_tableRow_mask (i : Instr) : fieldI3 (tableRow i).1 = 0xF#4 := by
  cases i <;> simp only [tableRow] <;> rfl

/-- A word that the row of `i` selects decodes to the instruction that row makes of it: every row fixes the family, and
the low nibble or `KK` where the family decides on it. -/
theorem decodeWord_of_rowSelects {w : Word} {i : Instr} (h : rowSelects (tableRow i) w = true) :
    decodeWord w = .instr (i.withFieldsOf w) := by
  have h3 := fieldI3_of_rowSelects h (fieldI3_tableRow_mask i)
  cases i <;> simp only [tableRow] at h h3
  case cls | ret =>
    rw [eq_of_rowSelects h rfl]; rfl
  case jp | call | seImm | sneImm | ldImm | addImm | ldI | rnd | drw =>
    rw [decodeWord, h3]; rfl
  case seReg | sneReg =>
    rw [decodeWord, h3, fieldN_of_rowSelects h rfl]; rfl
  case ldReg | orReg | andReg | xorReg | addReg | sub | shr | subn | shl =>
    rw [decodeWord, h3, decodeFamily8, fieldN_of_rowSelects h rfl]; rfl
  case skp | sknp =>
    rw [decodeWord, h3, decodeFamilyE, fieldKK_of_rowSelects h rfl]; rfl
  case ldVxDt | ldVxK | ldDtVx | ldStVx | addI | ldF | ldB | storeRegs | loadRegs =>
    rw [decodeWord, h3, decodeFamilyF, fieldKK_of_rowSelects h rfl]; rfl

/-! ### Round trip (R84) and selection (R86) -/

theorem decodeWord_encode {i : Instr} (h : i.wellFormed = true) : decodeWord (encode i) = .instr i := by
  rw [decodeWord_of_rowSelects (rowSelects_tableRow_encode i), withFieldsOf_encode h]

theorem wellFormed_and_encode_of_decodeWord {w : Word} {i : Instr} (h : decodeWord w = .instr i) :
    i.wellFormed = true ∧ encode i = w := by
  have hspells := decodeWord_spells w
  rwa [h] at hspells

theorem exists_decodeWord_of_rowSelects {w : Word} {row : Word × Word} (hrow : row ∈ opcodeTable)
    (h : rowSelects row w = true) : ∃ i, decodeWord w = .instr i ∧ tableRow i = row := by
  obtain ⟨i, -, rfl⟩ := List.mem_map.1 hrow
  exact ⟨i.withFieldsOf w, decodeWord_of_rowSelects h, tableRow_withFieldsOf w i⟩

/-- A word decodes to one instruction, so it is selected by that instruction's row only. -/
theorem row_eq_of_rowSelects {w : Word} {row row' : Word × Word} (hrow : row ∈ opcodeTable) (hrow' : row' ∈ opcodeTable)
    (h : rowSelects row w = true) (h' : rowSelects row' w = true) : row = row' := by
  obtain ⟨i, hi, rfl⟩ := exists_decodeWord_of_rowSelects hrow h
  obtain ⟨j, hj, rfl⟩ := exists_decodeWord_of_rowSelects hrow' h'
  cases hi.symm.trans hj
  rfl

theorem decodeWord_of_no_row {w : Word} (h : ∀ row ∈ opcodeTable, rowSelects row w = false) :
    decodeWord w = .unsupported w := by
  have hspells := decodeWord_spells w
  cases hdec : decodeWord w with
  | instr i =>
    obtain ⟨-, rfl⟩ := wellFormed_and_encode_of_decodeWord hdec
    have hnone := h _ (tableRow_mem_opcodeTable i)
    rw [rowSelects_tableRow_encode i] at hnone
    cases hnone
  | unsupported w' =>
    rw [hdec] at hspells
    exact congrArg Decoded.unsupported hspells

/-- Settles O1: the row of an instruction selects its encoding; what a word decodes to spells the word. -/
theorem encodeAndDecodeAreInverse : Obligations.EncodeAndDecodeAreInverse :=
  ⟨fun _ => decodeWord_encode, fun _ _ => wellFormed_and_encode_of_decodeWord⟩

/-- Settles O2: the rows one by one, then exclusivity and the remainder from the round trip. -/
theorem decodeFollowsTheOpcodeMap : Obligations.DecodeFollowsTheOpcodeMap :=
  ⟨fun _ _ => exists_decodeWord_of_rowSelects, fun _ _ _ => row_eq_of_rowSelects, fun _ => decodeWord_of_no_row⟩

end Sys2Proof

/-!
PROOFS. Control transfer (R101 to R107): the frame of an update of `pc` and of the call stack, the words of families 5 and
9 that are no instruction, and the jump, the call, the return and the four skips.
-/

namespace Sys2Proof

/-! ### The illegal words of families 5 and 9 (R85, R88) -/

@[simp] theorem fieldI3_formatXYN (op : BitVec 4) (x y : Reg) (n : BitVec 4) : fieldI3 (formatXYN op x y n) = op := by
  apply BitVec.eq_of_toNat_eq
  rw [fieldI3_toNat, toNat_formatXYN]; omega

theorem decodeWord_formatXYN_of_lowNibble_ne {op n : BitVec 4} (x y : Reg) (hop : op = 0x5#4 ∨ op = 0x9#4)
    (hn : n ≠ 0#4) : decodeWord (formatXYN op x y n) = .unsupported (formatXYN op x y n) := by
  obtain rfl | rfl := hop
  · simp [decodeWord, hn]
  · simp [decodeWord, hn]

end Sys2Proof

namespace Sys2Proof.Machine

/-! ### Frames of control transfer -/

theorem onlyChanges_refl (s : State) (parts : List Part) : onlyChanges s s parts := by
  intro p _
  cases p <;> simp [Part.same]

theorem onlyChanges_trans {s t u : State} {parts : List Part} (hst : onlyChanges s t parts)
    (htu : onlyChanges t u parts) : onlyChanges s u parts := by
  intro p hp
  have hst := hst p hp
  have htu := htu p hp
  cases p <;> simp_all [Part.same]

/-- `pc` is none of the parts. -/
theorem onlyChanges_setPc {s t : State} {parts : List Part} (h : onlyChanges s t parts) (v : Word) :
    onlyChanges s (t.setPc v) parts := by
  intro p hp
  have h := h p hp
  cases p <;> simpa [Part.same] using h

theorem push_changes (s : State) (v : Word) (hsp : s.sp.val < 16) : onlyChanges s (s.push v hsp) [.stack] := by
  intro p hp
  cases p <;> simp_all [Part.same]

theorem pop_changes (s : State) : onlyChanges s s.pop [.stack] := by
  intro p hp
  cases p <;> simp_all [Part.same]

/-! ### The call stack (R30, R31) -/

/-- The newest live entry is the one just pushed. -/
theorem State.top_push (s : State) (v : Word) (hsp : s.sp.val < 16) (hlive : 0 < (s.push v hsp).sp.val) :
    (s.push v hsp).top hlive = v :=
  Vector.getElem_set_self _

/-! ### Jump (R101) -/

/-- Settles O27: `pc` is written and nothing else. -/
theorem jumpGoesToItsAddress : Obligations.JumpGoesToItsAddress := fun nnn s =>
  ⟨toNat_formatNNN 0x1#4 nnn, _, rfl, State.setPc_address_toNat s nnn, onlyWrites_of_regs rfl [],
    onlyChanges_setPc (onlyChanges_refl s []) _⟩

/-! ### Call (R102) -/

/-- Settles O28: the push and the jump of a call with room, the fatal entry of a call with a full stack. -/
theorem callPushesTheReturnAddress : Obligations.CallPushesTheReturnAddress := by
  intro nnn s
  refine ⟨toNat_formatNNN 0x2#4 nnn, fun hsp => ?_, fun hsp => ?_⟩
  · refine ⟨_, execCall_of_room nnn hsp, State.setPc_address_toNat .., rfl, ?_, ?_, onlyWrites_of_regs rfl [],
      onlyChanges_setPc (push_changes s s.nextPc hsp) _⟩
    · rintro k hk rfl
      simp [State.nextPc_toNat]
    · intro k hk hne
      simp [Vector.getElem_set_ne, Ne.symm hne]
  · have hfull : ¬ s.sp.val < 16 := by omega
    exact ⟨_, execCall_of_full nnn hfull, rfl, rfl, rfl, rfl, onlyWrites_of_regs rfl [], raiseFatal_changes s _ _⟩

/-! ### Return (R103) -/

theorem execAll_cons_of_next {i : Instr} {s t : State} (rest : List Instr) (h : exec i s = .next t) :
    execAll (i :: rest) s = execAll rest t := by
  simp only [execAll, h]

/-- A call and then a return: the stack is pushed and popped, and `pc` is the entry pushed. -/
theorem execAll_call_ret (nnn : BitVec 12) {s : State} (hsp : s.sp.val < 16) :
    execAll [.call nnn, .ret] s =
      .next (((s.push s.nextPc hsp).setPc (address nnn)).pop.setPc s.nextPc) := by
  have hcall : exec (.call nnn) s = .next ((s.push s.nextPc hsp).setPc (address nnn)) := execCall_of_room nnn hsp
  have hlive : 0 < (s.push s.nextPc hsp).sp.val := Nat.succ_pos _
  have hret : exec .ret ((s.push s.nextPc hsp).setPc (address nnn)) =
      .next (((s.push s.nextPc hsp).setPc (address nnn)).pop.setPc ((s.push s.nextPc hsp).top hlive)) :=
    execRet_of_live hlive
  rw [State.top_push] at hret
  rw [execAll_cons_of_next _ hcall, execAll_cons_of_next _ hret]
  rfl

/-- Settles O29: the pop, the fatal entry, and the pop of what the call pushed. -/
theorem returnPopsTheReturnAddress : Obligations.ReturnPopsTheReturnAddress := by
  refine ⟨rfl, fun s hsp => ?_, fun s hsp => ?_, fun nnn s hsp => ?_⟩
  · refine ⟨_, execRet_of_live hsp, rfl, rfl, ?_, onlyWrites_of_regs rfl [],
      onlyChanges_setPc (pop_changes s) _⟩
    rintro k hk rfl
    exact wrapAddr_toNat _
  · have hempty : ¬ 0 < s.sp.val := by omega
    exact ⟨_, execRet_of_empty hempty, rfl, rfl, rfl, rfl, onlyWrites_of_regs rfl [], raiseFatal_changes s _ _⟩
  · refine ⟨_, execAll_call_ret nnn hsp, ?_, rfl, onlyWrites_of_regs rfl [], ?_⟩
    · simp [goesOn, wrapAddr_toNat, State.nextPc_toNat]
    · have hcall := onlyChanges_setPc (push_changes s s.nextPc hsp) (address nnn)
      exact onlyChanges_setPc (onlyChanges_trans hcall (pop_changes _)) _

/-! ### Skips (R104 to R107) -/

/-- An instruction that ends in `skipIf c` and does nothing else skips when the condition that `c` tests holds. -/
theorem exists_skipIf {i : Instr} {s : State} {c : Bool} {cond : Prop} (h : exec i s = .next (s.skipIf c))
    (hc : c = true ↔ cond) :
    ∃ t, exec i s = .next t ∧ skipsWhen cond s t ∧ onlyWrites s t [] ∧ onlyChanges s t [] :=
  ⟨_, h, propext hc ▸ skipsWhen_skipIf c rfl, onlyWrites_of_regs rfl [],
    onlyChanges_setPc (onlyChanges_refl s []) _⟩

/-- Settles O32: the two words, and each skip by the test it makes. -/
theorem skipsOnImmediate : Obligations.SkipsOnImmediate := fun x kk _ =>
  ⟨toNat_formatXKK 0x3#4 x kk, toNat_formatXKK 0x4#4 x kk, exists_skipIf rfl beq_iff_eq, exists_skipIf rfl bne_iff_ne⟩

/-- Settles O33: the two words, the illegal low nibbles, and each skip by the test it makes. -/
theorem skipsOnRegisters : Obligations.SkipsOnRegisters := fun x y _ =>
  ⟨toNat_formatXYN 0x5#4 x y 0x0#4, toNat_formatXYN 0x9#4 x y 0x0#4,
    fun _ hn => ⟨decodeWord_formatXYN_of_lowNibble_ne x y (.inl rfl) hn,
      decodeWord_formatXYN_of_lowNibble_ne x y (.inr rfl) hn⟩,
    exists_skipIf rfl beq_iff_eq, exists_skipIf rfl bne_iff_ne⟩

end Sys2Proof.Machine

/-!
PROOFS. Immediates (R120 to R122): the frame of an update of one register and of `I`, and the two instructions that load or
add an immediate and the load of `I`.
-/

namespace Sys2Proof.Machine

/-! ### Frames of a register write and of a write of `I` -/

/-- The register file is none of the parts: `onlyWrites` speaks of it. -/
theorem writeReg_changes (s : State) (x : Reg) (v : Byte) : onlyChanges s (s.writeReg x v) [] := by
  intro p _
  cases p <;> simp [Part.same]

theorem setIndex_changes (s : State) (v : Word) : onlyChanges s (s.setIndex v) [.index] := by
  intro p hp
  cases p <;> simp_all [Part.same]

/-! ### Immediate load and immediate add (R120, R121) -/

/-- An instruction that writes `v` to `x[X]`, goes on and does nothing else. -/
theorem exists_writeReg_advance {i : Instr} {s : State} {x : Reg} {v : Byte}
    (h : exec i s = .next (s.writeReg x v).advance) :
    ∃ t, exec i s = .next t ∧ t.readReg x = v ∧ goesOn s t ∧ onlyWrites s t [x] ∧ onlyChanges s t [] := by
  have hread : (s.writeReg x v).advance.readReg x = v := by simp [State.readReg_writeReg]
  exact ⟨_, h, hread, goesOn_advance rfl, onlyWrites_of_set rfl, onlyChanges_setPc (writeReg_changes s x v) _⟩

/-- Settles O34: the two words, and the one register each instruction writes; the sum of two bytes wraps at 256. -/
theorem loadAndAddImmediate : Obligations.LoadAndAddImmediate := by
  intro x kk s
  refine ⟨toNat_formatXKK 0x6#4 x kk, toNat_formatXKK 0x7#4 x kk, exists_writeReg_advance rfl, ?_⟩
  obtain ⟨t, hexec, hsum, hframe⟩ :=
    exists_writeReg_advance (i := .addImm x kk) (s := s) (x := x) (v := s.readReg x + kk) rfl
  exact ⟨t, hexec, by rw [hsum, BitVec.toNat_add], hframe⟩

/-! ### Index load (R122) -/

/-- Settles O35: a 12-bit address reaches `I` unreduced, and no register is written. -/
theorem loadIndexRegister : Obligations.LoadIndexRegister := by
  intro nnn s
  have hindex : (s.setIndex (address nnn)).advance.index.toNat = nnn.toNat := by
    simp [wrapAddr_address, address_toNat]
  exact ⟨toNat_formatNNN 0xA#4 nnn, _, rfl, hindex, goesOn_advance rfl, onlyWrites_of_regs rfl [],
    onlyChanges_setPc (setIndex_changes s _) _⟩

end Sys2Proof.Machine

/-!
PROOFS. The ALU family (R131 to R139): the words of family 8, the integer values of the results and of the flags, what
`WriteRF` leaves (R141), and the nine instructions.
-/

namespace Sys2Proof

/-! ### The words of family 8 (R130) -/

/-- The low nibble selects the instruction, so it is read together with the family's nibble. -/
theorem toNat_formatXYN_family8 (x y : Reg) (n : BitVec 4) :
    (formatXYN 0x8#4 x y n).toNat = 0x8000 + n.toNat + x.val * 0x100 + y.val * 0x10 := by
  have hop : (0x8#4).toNat = 8 := rfl
  rw [toNat_formatXYN, hop]; omega

end Sys2Proof

namespace Sys2Proof.Machine

/-! ### Results as integers (R135 to R139) -/

section
variable (a b v : Byte)

theorem add_eq_ofNat : a + b = BitVec.ofNat 8 ((a.toNat + b.toNat) % 256) := by
  apply BitVec.eq_of_toNat_eq
  simp [BitVec.toNat_add]

theorem sub_eq_ofNat : a - b = BitVec.ofNat 8 ((256 + a.toNat - b.toNat) % 256) := by
  apply BitVec.eq_of_toNat_eq
  have hb := b.isLt
  rw [BitVec.toNat_sub, BitVec.toNat_ofNat]
  omega

theorem ushiftRight_one_eq_ofNat : v >>> 1 = BitVec.ofNat 8 (v.toNat / 2) := by
  apply BitVec.eq_of_toNat_eq
  have hv := v.isLt
  rw [BitVec.toNat_ushiftRight, Nat.shiftRight_eq_div_pow, BitVec.toNat_ofNat]
  omega

theorem shiftLeft_one_eq_ofNat : v <<< 1 = BitVec.ofNat 8 (v.toNat * 2 % 256) := by
  apply BitVec.eq_of_toNat_eq
  rw [BitVec.toNat_shiftLeft, Nat.shiftLeft_eq, BitVec.toNat_ofNat]
  omega

/-! ### Flags as conditions on integers (R135 to R139) -/

theorem carryFlag_iff : carryFlag a b = true ↔ 255 < a.toNat + b.toNat := decide_eq_true_iff

theorem subFlag_iff : subFlag a b = true ↔ b.toNat < a.toNat := decide_eq_true_iff

theorem subnFlag_iff : subnFlag a b = true ↔ a.toNat < b.toNat := decide_eq_true_iff

theorem shrFlag_iff : shrFlag v = true ↔ v.toNat % 2 = 1 := by
  rw [shrFlag, BitVec.getLsbD, Nat.testBit_zero, decide_eq_true_iff]

theorem shlFlag_iff : shlFlag v = true ↔ 128 ≤ v.toNat := by
  rw [shlFlag, ← BitVec.msb_eq_getLsbD_last, BitVec.msb_eq_decide, decide_eq_true_iff]

end

theorem isFlag_flagByte {f : Bool} {p : Prop} (hf : f = true ↔ p) : isFlag (flagByte f) p :=
  ⟨fun hp => if_pos (hf.mpr hp), fun hp => if_neg (mt hf.mp hp)⟩

/-! ### What `WriteRF` leaves (R141) -/

section
variable (s : State) (x : Reg) (r : Byte)

/-- The register file is none of the parts. -/
theorem writeRF_changes (f : Bool) : onlyChanges s (s.writeRF x r f) [] := by
  intro p _
  cases p <;> simp [Part.same]

theorem writeRF_onlyWrites (f : Bool) : onlyWrites s (s.writeRF x r f) [x, 15] := by
  intro q hq
  obtain ⟨hx, h15⟩ : x ≠ q ∧ (15 : Reg) ≠ q := by simpa [eq_comm] using hq
  rw [State.readReg_writeRF]
  cases s.params.vfPriority <;> simp [hx, h15]

theorem writeRF_resultAndFlag {f : Bool} {p : Prop} (hf : f = true ↔ p) :
    resultAndFlag s (s.writeRF x r f) x r p := by
  have hflag := isFlag_flagByte hf
  refine ⟨fun hx => ?_, ?_, ?_⟩
  · cases hvf : s.params.vfPriority <;> simp [State.readReg_writeRF, hvf, hx, hx.symm, hflag]
  · rintro rfl hvf
    simpa [State.readReg_writeRF, hvf] using hflag
  · rintro rfl hvf
    simp [State.readReg_writeRF, hvf]

end

/-- An instruction that ends in `WriteRF`, goes on and does nothing else, its result and its flag said in integers. -/
theorem exists_writeRF_advance {i : Instr} {s : State} {x : Reg} {r r' : Byte} {f : Bool} {p : Prop}
    (h : exec i s = .next (s.writeRF x r f).advance) (hr : r = r') (hf : f = true ↔ p) :
    ∃ t, exec i s = .next t ∧ resultAndFlag s t x r' p ∧ goesOn s t ∧ onlyWrites s t [x, 15] ∧ onlyChanges s t [] := by
  subst hr
  exact ⟨_, h, writeRF_resultAndFlag s x r hf, goesOn_advance (State.writeRF_pc ..), writeRF_onlyWrites s x r f,
    onlyChanges_setPc (writeRF_changes s x r f) _⟩

/-! ### Copy, OR, AND, XOR (R131 to R134) -/

/-- Settles O37: each of the four writes one register, `x[X]`. -/
theorem copyAndLogicWriteNoFlag : Obligations.CopyAndLogicWriteNoFlag := fun x y _ =>
  ⟨toNat_formatXYN_family8 x y 0x0#4, toNat_formatXYN_family8 x y 0x1#4, toNat_formatXYN_family8 x y 0x2#4,
    toNat_formatXYN_family8 x y 0x3#4, exists_writeReg_advance rfl, exists_writeReg_advance rfl,
    exists_writeReg_advance rfl, exists_writeReg_advance rfl⟩

/-! ### Addition and subtractions (R135, R136, R138) -/

/-- Settles O38: the sum of two bytes wraps at 256, and the flag is its ninth bit. -/
theorem addReportsTheCarry : Obligations.AddReportsTheCarry := fun x y _ =>
  ⟨toNat_formatXYN_family8 x y 0x4#4, exists_writeRF_advance rfl (add_eq_ofNat _ _) (carryFlag_iff _ _)⟩

/-- Settles O39: the difference of two bytes wraps at 256, and the flag is the strict comparison. -/
theorem subtractionsReportAStrictFlag : Obligations.SubtractionsReportAStrictFlag := fun x y _ =>
  ⟨toNat_formatXYN_family8 x y 0x5#4, toNat_formatXYN_family8 x y 0x7#4,
    exists_writeRF_advance rfl (sub_eq_ofNat _ _) (subFlag_iff _ _),
    exists_writeRF_advance rfl (sub_eq_ofNat _ _) (subnFlag_iff _ _)⟩

/-! ### Shifts (R137, R139) -/

/-- `SHIFT_SOURCE` has two values, so a byte that is the operand under each of them is the operand. -/
theorem State.shiftOperand_eq {s : State} {x y : Reg} {v : Byte} (hx : s.params.shiftSource = .x → v = s.readReg x)
    (hy : s.params.shiftSource = .y → v = s.readReg y) : s.shiftOperand x y = v := by
  unfold State.shiftOperand
  cases hsrc : s.params.shiftSource with
  | x => exact (hx hsrc).symm
  | y => exact (hy hsrc).symm

/-- Settles O40: both shifts act on the one operand that `SHIFT_SOURCE` names, and the flag is the bit they drop. -/
theorem shiftsReportTheBitShiftedOut : Obligations.ShiftsReportTheBitShiftedOut := by
  intro x y s v hx hy
  obtain rfl := State.shiftOperand_eq hx hy
  exact ⟨toNat_formatXYN_family8 x y 0x6#4, toNat_formatXYN_family8 x y 0xE#4,
    exists_writeRF_advance rfl (ushiftRight_one_eq_ofNat _) (shrFlag_iff _),
    exists_writeRF_advance rfl (shiftLeft_one_eq_ofNat _) (shlFlag_iff _)⟩

end Sys2Proof.Machine

/-!
PROOFS. The display (R151 to R156): the frame of an update of the framebuffer, what one sprite draw does to the pixels and to
`hit`, and the clear and the draw.
-/

namespace Sys2Proof.Machine

/-! ### The frame of an update of the framebuffer -/

theorem setFb_changes (s : State) (fb : Framebuffer) : onlyChanges s (s.setFb fb) [.framebuffer] := by
  intro p hp
  cases p <;> simp_all [Part.same]

theorem onlyChanges_writeReg {s t : State} {parts : List Part} (h : onlyChanges s t parts) (x : Reg) (v : Byte) :
    onlyChanges s (t.writeReg x v) parts :=
  onlyChanges_trans h fun p _ => writeReg_changes t x v p List.not_mem_nil

/-! ### Clear (R151) -/

/-- Settles O41: the framebuffer is written and nothing else. -/
theorem clearTurnsEveryPixelOff : Obligations.ClearTurnsEveryPixelOff :=
  ⟨rfl, fun s => ⟨_, rfl, pixel_clear, goesOn_advance rfl, onlyWrites_of_regs rfl [],
    onlyChanges_setPc (setFb_changes s clearFramebuffer) _⟩⟩

/-! ### What a sprite draw does (R153) -/

section
variable (s : State) (x y : Reg) (n : Nat)

theorem State.pixel_drawSprite {r c : Nat} (hr : r < 32) (hc : c < 64) :
    pixel (s.drawSprite x y n).fb r c = (spriteBit s x y n r c ^^ pixel s.fb r c) := by
  rw [← rowsBit_readBytes]
  exact (drawRows_spec ..).1 r c hr hc

/-- The loop begins with `hit` false, so what it records is a collision of this sprite (R155). -/
theorem State.hit_drawSprite_iff : (s.drawSprite x y n).hit = true ↔ collides s x y n := by
  simp only [collides, ← rowsBit_readBytes]
  exact (drawRows_spec ..).2.trans (by simp)

theorem toNat_encode_drw (hn : n < 16) :
    (encode (.drw x y n)).toNat = 0xD000 + x.val * 0x100 + y.val * 0x10 + n := by
  have hcount : (BitVec.ofNat 4 n).toNat = n := Nat.mod_eq_of_lt hn
  exact (toNat_formatXYN 0xD#4 x y (BitVec.ofNat 4 n)).trans (by rw [hcount]; rfl)

end

/-- Settles O42: the pixels and `hit` of the sprite draw, then the flag register with what `hit` says. -/
theorem drawXorsTheSprite : Obligations.DrawXorsTheSprite := by
  intro x y n s hn
  have hflag : ((s.setFb (s.drawSprite x y n).fb).writeFlag (s.drawSprite x y n).hit).readReg 15 =
      flagByte (s.drawSprite x y n).hit := by simp [State.readReg_writeFlag]
  exact ⟨toNat_encode_drw x y n hn, _, rfl, fun _ _ => s.pixel_drawSprite x y n,
    hflag ▸ isFlag_flagByte (s.hit_drawSprite_iff x y n), goesOn_advance rfl, onlyWrites_of_set rfl,
    onlyChanges_setPc (onlyChanges_writeReg (setFb_changes s _) flagReg _) _⟩

/-! ### A sprite with no pixel on the grid (R154, R156) -/

section
variable {s : State} {x y : Reg} {n : Nat}
  (hoff : n = 0 ∨ 64 ≤ (s.readReg x).toNat ∨ 32 ≤ (s.readReg y).toNat)
include hoff

theorem spriteBit_of_offGrid {r c : Nat} (hr : r < 32) (hc : c < 64) : spriteBit s x y n r c = false := by
  have huncovered : ¬((s.readReg y).toNat ≤ r ∧ r < (s.readReg y).toNat + n ∧
      (s.readReg x).toNat ≤ c ∧ c < (s.readReg x).toNat + 8) := by omega
  simp [spriteBit, huncovered]

/-- Every pixel is XORed with 0, and a bit that is 0 collides with nothing. -/
theorem State.drawSprite_of_offGrid : s.drawSprite x y n = ⟨s.fb, false⟩ := by
  have hfb : (s.drawSprite x y n).fb = s.fb := framebuffer_ext _ _ fun r c hr hc => by
    rw [State.pixel_drawSprite s x y n hr hc, spriteBit_of_offGrid hoff hr hc, Bool.false_xor]
  have hhit : ¬(s.drawSprite x y n).hit = true := by
    rw [State.hit_drawSprite_iff]
    rintro ⟨r, c, hr, hc, hbit, -⟩
    simp [spriteBit_of_offGrid hoff hr hc] at hbit
  rw [← hfb, ← Bool.eq_false_of_not_eq_true hhit]

/-- Such a draw only clears the flag register. -/
theorem exec_drw_of_offGrid : exec (.drw x y n) s = .next (s.writeReg flagReg 0#8).advance := by
  simp only [exec, execDrw, State.drawSprite_of_offGrid hoff]
  rfl

end

/-- Settles O43: off the grid `Dxyn` only clears `x[15]`, and a decoded row count has four bits. -/
theorem drawOutsideTheGridDoesNothing : Obligations.DrawOutsideTheGridDoesNothing := by
  refine ⟨fun x y n s hoff => ?_, fun w x y n hdec => ?_⟩
  · obtain ⟨t, hexec, hflag, hpc, hregs, hchanges⟩ := exists_writeReg_advance (exec_drw_of_offGrid hoff)
    exact ⟨t, hexec, hchanges .framebuffer List.not_mem_nil, hflag, hpc, hregs, hchanges⟩
  · exact of_decide_eq_true (wellFormed_and_encode_of_decodeWord hdec).1

end Sys2Proof.Machine

/-!
PROOFS. The key-wait (R173, R174): what it does with a key held, what a `Step` and a batch do while it waits, and what a
`Tick` leaves to wait on.
-/

namespace Sys2Proof.Machine

/-! ### The key-wait with a key held (R173) -/

section
variable {s t : State} {k : Nat}

/-- The index of a key has four bits, so the byte written is the index. -/
theorem exists_exec_ldVxK_of_key (x : Reg) (hk : lowestKey s.keys = some k) :
    ∃ t, exec (.ldVxK x) s = .next t ∧ (t.readReg x).toNat = k ∧ goesOn s t ∧ onlyWrites s t [x] ∧
      onlyChanges s t [] := by
  obtain ⟨hlt, -, -⟩ := (lowestKey_eq_some s.keys k).mp hk
  obtain ⟨t, hexec, hread, hframe⟩ := exists_writeReg_advance (i := .ldVxK x) (execLdVxK_of_key x hk)
  have hindex : (t.readReg x).toNat = k := by rw [hread, BitVec.toNat_ofNat]; omega
  exact ⟨t, hexec, hindex, hframe⟩

theorem execOutcome_of_key {i : Instr} (ht : t.run = .running) (hk : lowestKey s.keys = some k) :
    execOutcome i s t = .advanced := by
  simp [execOutcome_of_running ht, hk]

theorem run_of_onlyChanges_nil (h : onlyChanges s t []) : t.run = s.run := (h .latch List.not_mem_nil).1

end

/-- Settles O48: the two answers of the key-wait, by whether a lowest held key exists. -/
theorem keyWaitStoresTheLowestKey : Obligations.KeyWaitStoresTheLowestKey := by
  refine fun x s => ⟨?_, fun k hlt hheld hleast => ?_, fun hnone => ?_⟩
  · have hop : (0xF#4).toNat = 15 := rfl
    have hsub : (0x0A#8).toNat = 10 := rfl
    rw [encode, toNat_formatX, hop, hsub]; omega
  · have hk : lowestKey s.keys = some k := (lowestKey_eq_some s.keys k).mpr ⟨hlt, hheld, hleast⟩
    obtain ⟨t, hexec, hread, hpc, hregs, hchanges⟩ := exists_exec_ldVxK_of_key x hk
    have hrun : t.run = s.run := run_of_onlyChanges_nil hchanges
    exact ⟨t, hexec, hread, hpc, hregs, hchanges, fun h => execOutcome_of_key (hrun.trans h) hk⟩
  · have hk : lowestKey s.keys = none := (lowestKey_eq_none s.keys).mpr hnone
    exact ⟨execLdVxK_of_no_key x hk, fun h => (execOutcome_of_running h).trans (if_pos ⟨rfl, hk⟩)⟩

/-! ### A `Step` and a batch while no key is held (R174) -/

section
variable {s t : State}

theorem State.stepEvent_of_waitsForKey (hrun : s.run = .running) (hwait : s.waitsForKey) : s.stepEvent = .next s := by
  obtain ⟨x, hdec⟩ := hwait.1
  rw [State.stepEvent_of_instr hrun hdec, exec_of_waitsForKey hdec hwait]

theorem step_of_waitsForKey (hsched : s.schedule = []) (hrun : s.run = .running) (hwait : s.waitsForKey) :
    step s = .next s := by
  rw [step_of_schedule_nil hsched, State.stepEvent_of_waitsForKey hrun hwait]

theorem State.stepOutcome_of_waitsForKey (hrun : s.run = .running) (hwait : s.waitsForKey) :
    s.stepOutcome = some .awaitingInput := by
  obtain ⟨outcome, hout, heffect⟩ := State.stepEvent_effect (State.stepEvent_of_waitsForKey hrun hwait)
  rw [hout, heffect.eq_awaitingInput_iff.mpr ⟨hrun, hwait⟩]

/-- A batch stops at the first `Step` whose outcome is not `Advanced` (R8). -/
theorem State.executeBatch_of_not_advanced (n : Nat) (hstep : s.stepEvent = .next t)
    (hout : s.stepOutcome ≠ some .advanced) : State.executeBatch (n + 1) s = .next t := by
  simp only [State.executeBatch, hstep, if_neg hout]

/-! ### A `Tick` while no key is held (R174, R183) -/

theorem toNat_countDown (v : Byte) : (countDown v).toNat = v.toNat - 1 := by
  unfold countDown
  split
  · next h => rw [h]; rfl
  · next h => bv_omega

theorem State.tickEvent_of_running (hrun : s.run = .running) :
    s.tickEvent = (s.setDt (countDown s.dt)).setSt (countDown s.st) := by
  simp only [State.tickEvent, hrun]

/-- The two timers are neither the instruction at `pc` nor the keys. -/
theorem State.waitsForKey_setTimers (hwait : s.waitsForKey) (dt st : Byte) : ((s.setDt dt).setSt st).waitsForKey :=
  hwait

end

/-- Settles O49: the machine waits before the `Tick` and after it, and the sample the host sets ends the wait. -/
theorem waitingIsARetry : Obligations.WaitingIsARetry := by
  intro x s n hrun hsched hdec hnone
  have hwait : s.waitsForKey := ⟨⟨x, hdec⟩, hnone⟩
  have hout := State.stepOutcome_of_waitsForKey hrun hwait
  refine ⟨step_of_waitsForKey hsched hrun hwait, hout, ?batch, ?tick, fun keys k hlt hheld hleast => ?key⟩
  case batch =>
    exact State.executeBatch_of_not_advanced n (State.stepEvent_of_waitsForKey hrun hwait) (by simp [hout])
  case tick =>
    have hwait' := State.waitsForKey_setTimers hwait (countDown s.dt) (countDown s.st)
    exact ⟨_, congrArg Host.Outcome.next (State.tickEvent_of_running hrun), toNat_countDown s.dt,
      State.stepOutcome_of_waitsForKey hrun hwait', step_of_waitsForKey hsched hrun hwait'⟩
  case key =>
    have hk : lowestKey (s.keysEvent keys).keys = some k := (lowestKey_eq_some keys k).mpr ⟨hlt, hheld, hleast⟩
    have hstepKey : step (s.keysEvent keys) = exec (.ldVxK x) (s.keysEvent keys) :=
      (step_of_schedule_nil (s := s.keysEvent keys) hsched).trans (State.stepEvent_of_instr hrun hdec)
    obtain ⟨u, hexec, hread, hpc, -, -⟩ := exists_exec_ldVxK_of_key x hk
    exact ⟨_, u, rfl, hstepKey.trans hexec, hread, hpc⟩

end Sys2Proof.Machine

/-!
PROOFS. The timers (R180 to R183): the words of family F, the frame of an update of a timer, `Tick`, and the three
instructions that move a byte between a timer and a register.
-/

namespace Sys2Proof

/-! ### The words of family F (R86) -/

/-- The low byte selects the instruction, so it is read together with the family's nibble. -/
theorem toNat_formatX_familyF (x : Reg) (sub : Byte) :
    (formatX 0xF#4 x sub).toNat = 0xF000 + sub.toNat + x.val * 0x100 := by
  have hop : (0xF#4).toNat = 15 := rfl
  rw [toNat_formatX, hop]; omega

end Sys2Proof

namespace Sys2Proof.Machine

/-! ### The frame of an update of a timer -/

/-- A longer list of parts allows more. -/
theorem onlyChanges_mono {s t : State} {parts parts' : List Part} (h : onlyChanges s t parts)
    (hsub : parts ⊆ parts') : onlyChanges s t parts' :=
  fun p hp => h p (mt (@hsub p) hp)

theorem setDt_changes (s : State) (v : Byte) : onlyChanges s (s.setDt v) [.delayTimer] := by
  intro p hp
  cases p <;> simp_all [Part.same]

theorem setSt_changes (s : State) (v : Byte) : onlyChanges s (s.setSt v) [.soundTimer] := by
  intro p hp
  cases p <;> simp_all [Part.same]

theorem setTimers_changes (s : State) (dt st : Byte) :
    onlyChanges s ((s.setDt dt).setSt st) [.delayTimer, .soundTimer] :=
  onlyChanges_trans (onlyChanges_mono (setDt_changes s dt) (by simp))
    (onlyChanges_mono (setSt_changes (s.setDt dt) st) (by simp))

/-! ### `Tick` (R183) -/

theorem State.tickEvent_of_halted {s : State} (hrun : s.run = .halted) : s.tickEvent = s := by
  simp only [State.tickEvent, hrun]

/-- Settles O26: a `Tick` while running counts both timers down, one while halted answers the same state. -/
theorem tickCountsDown : Obligations.TickCountsDown := by
  intro s
  refine ⟨s.tickEvent, rfl, ?_⟩
  cases hrun : s.run with
  | running =>
    rw [State.tickEvent_of_running hrun]
    exact ⟨fun _ => ⟨toNat_countDown s.dt, toNat_countDown s.st⟩, nofun, rfl, onlyWrites_of_regs rfl [],
      setTimers_changes s _ _⟩
  | halted =>
    rw [State.tickEvent_of_halted hrun]
    exact ⟨nofun, fun _ => rfl, rfl, onlyWrites_of_regs rfl [], onlyChanges_refl s _⟩

/-! ### Moves between a timer and a register (R180 to R182) -/

/-- Settles O50: the three words, then the one register or the one timer that each instruction writes. -/
theorem timerInstructionsMoveAByte : Obligations.TimerInstructionsMoveAByte := by
  intro x s
  refine ⟨toNat_formatX_familyF x 0x07#8, toNat_formatX_familyF x 0x15#8, toNat_formatX_familyF x 0x18#8,
    exists_writeReg_advance rfl, ?ldDtVx, ?ldStVx⟩
  case ldDtVx =>
    exact ⟨_, rfl, rfl, goesOn_advance rfl, onlyWrites_of_regs rfl [], onlyChanges_setPc (setDt_changes s _) _⟩
  case ldStVx =>
    exact ⟨_, rfl, rfl, goesOn_advance rfl, onlyWrites_of_regs rfl [], onlyChanges_setPc (setSt_changes s _) _⟩

end Sys2Proof.Machine

/-!
PROOFS. Index register and memory (R191 to R195): the integer values written to `I`, the frames of a store and of a load of
registers, and the bytes a store leaves at its operand addresses.
-/

namespace Sys2Proof.Machine

/-! ### Index arithmetic and font address (R191, R192) -/

/-- An instruction that writes `v` to `I`, goes on and does nothing else. -/
theorem exists_setIndex_advance {i : Instr} {s : State} {v : Word} {n : Nat}
    (h : exec i s = .next (s.setIndex v).advance) (hv : v.toNat % 4096 = n) :
    ∃ t, exec i s = .next t ∧ t.index.toNat = n ∧ goesOn s t ∧ onlyWrites s t [] ∧ onlyChanges s t [.index] :=
  ⟨_, h, (wrapAddr_toNat v).trans hv, goesOn_advance rfl, onlyWrites_of_regs rfl [],
    onlyChanges_setPc (setIndex_changes s v) _⟩

theorem State.zextReg_toNat (s : State) (x : Reg) : (s.zextReg x).toNat = (s.readReg x).toNat :=
  BitVec.toNat_setWidth_of_le (by decide)

/-- The 16-bit sum may wrap, and 4096 divides 65536. -/
theorem toNat_add_mod_4096 (v w : Word) : (v + w).toNat % 4096 = (v.toNat + w.toNat) % 4096 := by
  rw [BitVec.toNat_add]; omega

/-- Five times a byte is at most 1275, so nothing is reduced. -/
theorem State.zextReg_mul_five_toNat (s : State) (x : Reg) :
    (s.zextReg x * 5#16).toNat % 4096 = (s.readReg x).toNat * 5 := by
  have hbyte := (s.readReg x).isLt
  rw [BitVec.toNat_mul, State.zextReg_toNat, BitVec.toNat_ofNat]; omega

/-- Settles O51: the two words, and what each instruction writes to `I` as an integer. -/
theorem indexArithmetic : Obligations.IndexArithmetic := by
  intro x s
  refine ⟨toNat_formatX_familyF x 0x1E#8, toNat_formatX_familyF x 0x29#8, ?addI, ?ldF⟩
  case addI => exact exists_setIndex_advance rfl (by rw [toNat_add_mod_4096, State.zextReg_toNat])
  case ldF => exact exists_setIndex_advance rfl (s.zextReg_mul_five_toNat x)

/-! ### Decimal digits (R193) -/

theorem writeBytes_changes (s : State) (a : Nat) (vs : List Byte) : onlyChanges s (s.writeBytes a vs) [.memory] := by
  intro p hp
  cases p <;> simp_all [Part.same]

/-- Byte `k` of a list stored from the memory operand on. -/
theorem State.readByte_writeBytes_operandAddr (s : State) (vs : List Byte) (hlen : vs.length ≤ 16) (k : Nat)
    (hk : k < vs.length) : (s.writeBytes (s.operandAddr 0) vs).readByte (s.operandAddr k) = vs[k] :=
  State.writeBytes_inside s s.index.toNat vs (by omega) k hk

/-- Settles O52: each digit is the byte stored at its place in the list of three. -/
theorem bcdStoresThreeDigits : Obligations.BcdStoresThreeDigits := by
  intro x s
  have hdigit := s.readByte_writeBytes_operandAddr (decimalDigits (s.readReg x)) (by simp [decimalDigits])
  refine ⟨toNat_formatX_familyF x 0x33#8, _, rfl, ?hundreds, ?tens, ?ones,
    State.writeBytes_outside s _ (decimalDigits (s.readReg x)), goesOn_advance (State.writeBytes_pc ..),
    onlyWrites_of_regs (State.writeBytes_regs ..) [], onlyChanges_setPc (writeBytes_changes s _ _) _⟩
  case hundreds => exact congrArg BitVec.toNat (hdigit 0 (by simp [decimalDigits]))
  case tens => exact congrArg BitVec.toNat (hdigit 1 (by simp [decimalDigits]))
  case ones => exact congrArg BitVec.toNat (hdigit 2 (by simp [decimalDigits]))

/-! ### `I` moves past the registers (R194, R195) -/

theorem State.indexPast_index_toNat (s : State) (x : Reg) :
    (s.indexPast x).index.toNat = (s.index.toNat + x.val + 1) % 4096 := by
  have hcount : (BitVec.ofNat 16 (x.val + 1)).toNat = x.val + 1 := Nat.mod_eq_of_lt (by omega)
  rw [State.indexPast_index, wrapAddr_toNat, toNat_add_mod_4096, hcount, Nat.add_assoc]

/-- How `Fx55` and `Fx65` end, after an update `t` of other parts. -/
theorem onlyChanges_indexPast_advance {s t : State} {parts : List Part} (h : onlyChanges s t parts) (x : Reg)
    (hindex : .index ∈ parts) : onlyChanges s (t.indexPast x).advance parts :=
  onlyChanges_setPc (onlyChanges_trans h (onlyChanges_mono (setIndex_changes t _) (by simpa using hindex))) _

/-! ### Register store (R194) -/

theorem State.length_regsUpTo (s : State) (x : Reg) : (s.regsUpTo x).length = x.val + 1 := by
  simp [State.regsUpTo]

theorem State.getElem_regsUpTo (s : State) (x r : Reg) (hr : r.val < (s.regsUpTo x).length) :
    (s.regsUpTo x)[r.val] = s.readReg r := by
  simp [State.regsUpTo, State.readReg]

/-- Settles O53: byte `r` of the stored list is `x[r]`, and the list has X + 1 bytes. -/
theorem storeRegistersAndMoveIndex : Obligations.StoreRegistersAndMoveIndex := by
  intro x s
  have hlen := s.length_regsUpTo x
  have houtside := State.writeBytes_outside s (s.operandAddr 0) (s.regsUpTo x)
  rw [hlen] at houtside
  refine ⟨toNat_formatX_familyF x 0x55#8, _, rfl, ?stored, memoryOutside_congr houtside rfl rfl, ?index,
    goesOn_advance (State.writeBytes_pc ..), onlyWrites_of_regs (State.writeBytes_regs ..) [],
    onlyChanges_indexPast_advance (onlyChanges_mono (writeBytes_changes s _ _) (by simp)) x (by simp)⟩
  case stored =>
    intro r hr
    have hr : r.val < (s.regsUpTo x).length := by omega
    exact (s.readByte_writeBytes_operandAddr _ (by omega) r.val hr).trans (s.getElem_regsUpTo x r hr)
  case index => rw [State.advance_index, State.indexPast_index_toNat, State.writeBytes_index]

/-! ### Register load (R195) -/

/-- The register file is none of the parts: `readReg_loadUpTo` speaks of it. -/
theorem loadUpTo_changes (s : State) (x : Reg) : onlyChanges s (s.loadUpTo x) [] := by
  intro p _
  cases p <;> simp [Part.same]

/-- Settles O54: `x[r]` is loaded when r is at most X and kept when it is above X. -/
theorem loadRegistersAndMoveIndex : Obligations.LoadRegistersAndMoveIndex := by
  intro x s
  have hread := s.readReg_loadUpTo x
  exact ⟨toNat_formatX_familyF x 0x65#8, _, rfl, fun r hr => (hread r).trans (if_pos hr),
    fun r hr => (hread r).trans (if_neg (Nat.not_le_of_lt hr)), (s.loadUpTo x).indexPast_index_toNat x,
    goesOn_advance rfl,
    onlyChanges_indexPast_advance (onlyChanges_mono (loadUpTo_changes s x) (by simp)) x (by simp)⟩

end Sys2Proof.Machine

/-!
PROOFS. Moves: what a `Step`, an event and a move can do, each said once; a property that instructions and events keep is
kept by every move. From it the invariant (R24, R27, R31, R34, R201) and that the sound timer is never observed (R29, R185).
-/

namespace Sys2Proof.Machine

/-! ### What a `Step`, a `Load` and a move can do -/

section
variable {s t : State} {bytes : List Byte}

/-- A `Step` while halted does nothing; while running it executes the decoded instruction or raises the fatal condition. -/
theorem State.stepEvent_cases (h : s.stepEvent = .next t) :
    (s.run = .halted ∧ t = s) ∨
    (s.run = .running ∧ ∃ i, decodeWord s.fetch = .instr i ∧ exec i s = .next t) ∨
    (s.run = .running ∧ ∃ w, decodeWord s.fetch = .unsupported w ∧ t = s.raiseFatal .unsupportedInstruction w) := by
  cases hrun : s.run with
  | halted =>
    cases (State.stepEvent_of_halted hrun).symm.trans h
    exact .inl ⟨rfl, rfl⟩
  | running =>
    cases hdec : decodeWord s.fetch with
    | instr i => exact .inr (.inl ⟨rfl, i, rfl, (State.stepEvent_of_instr hrun hdec).symm.trans h⟩)
    | unsupported w =>
      cases (State.stepEvent_of_unsupported hrun hdec).symm.trans h
      exact .inr (.inr ⟨rfl, w, rfl, rfl⟩)

theorem State.loadEvent_of_halted (hrun : s.run = .halted) : s.loadEvent bytes = s := by
  simp only [State.loadEvent, hrun]

theorem State.loadEvent_of_fits (hrun : s.run = .running) (hlen : bytes.length ≤ 3584) :
    s.loadEvent bytes = s.writeBytes 0x200 bytes := by
  simp only [State.loadEvent, hrun, if_neg (Nat.not_lt_of_le hlen)]

theorem State.loadEvent_of_tooLarge (hrun : s.run = .running) (hlen : 3584 < bytes.length) :
    s.loadEvent bytes = s.raiseFatal .loadError 0#16 := by
  simp only [State.loadEvent, hrun, if_pos hlen]

/-- A move is a `Step` where the schedule is empty, and else the event at its head. -/
theorem step_cases (h : step s = .next t) :
    (s.schedule = [] ∧ s.stepEvent = .next t) ∨
    ∃ ev rest, s.schedule = ev :: rest ∧ (s.setSchedule rest).hostEvent ev = .next t := by
  cases hsched : s.schedule with
  | nil => exact .inl ⟨rfl, (step_of_schedule_nil hsched).symm.trans h⟩
  | cons ev rest => exact .inr ⟨ev, rest, rfl, (step_of_schedule_cons hsched).symm.trans h⟩

end

/-! ### A property that every move keeps -/

/-- The property is kept by every instruction, by every effect of an event, and by taking an event from the schedule. -/
structure KeptByMoves (P : State → Prop) : Prop where
  exec        : ∀ {i : Instr} {s t : State}, Machine.exec i s = .next t → P s → P t
  raiseFatal  : ∀ {s : State} (c : Cause) (w : Word), P s → P (s.raiseFatal c w)
  resetEvent  : ∀ {s : State}, P s → P s.resetEvent
  writeBytes  : ∀ {s : State} (a : Nat) (vs : List Byte), P s → P (s.writeBytes a vs)
  setTimers   : ∀ {s : State} (dt st : Byte), P s → P ((s.setDt dt).setSt st)
  keysEvent   : ∀ {s : State} (keys : BitVec 16), P s → P (s.keysEvent keys)
  setSchedule : ∀ {s : State} (evs : List HostEvent), P s → P (s.setSchedule evs)

section
variable {P : State → Prop} {s t : State}

theorem KeptByMoves.stepEvent (hP : KeptByMoves P) (h : s.stepEvent = .next t) (hs : P s) : P t := by
  obtain ⟨-, rfl⟩ | ⟨-, i, -, hexec⟩ | ⟨-, w, -, rfl⟩ := State.stepEvent_cases h
  · exact hs
  · exact hP.exec hexec hs
  · exact hP.raiseFatal _ w hs

theorem KeptByMoves.tickEvent (hP : KeptByMoves P) (hs : P s) : P s.tickEvent := by
  cases hrun : s.run with
  | running => rw [State.tickEvent_of_running hrun]; exact hP.setTimers _ _ hs
  | halted => rwa [State.tickEvent_of_halted hrun]

theorem KeptByMoves.loadEvent (hP : KeptByMoves P) (bytes : List Byte) (hs : P s) : P (s.loadEvent bytes) := by
  cases hrun : s.run with
  | running =>
    obtain hlen | hlen := Nat.lt_or_ge 3584 bytes.length
    · rw [State.loadEvent_of_tooLarge hrun hlen]; exact hP.raiseFatal _ _ hs
    · rw [State.loadEvent_of_fits hrun hlen]; exact hP.writeBytes _ bytes hs
  | halted => rwa [State.loadEvent_of_halted hrun]

theorem KeptByMoves.hostEvent (hP : KeptByMoves P) {ev : HostEvent} (h : s.hostEvent ev = .next t) (hs : P s) : P t := by
  cases ev with
  | reset => cases h; exact hP.resetEvent hs
  | load bytes => cases h; exact hP.loadEvent bytes hs
  | step => exact hP.stepEvent h hs
  | tick => cases h; exact hP.tickEvent hs
  | setKeys keys => cases h; exact hP.keysEvent keys hs

theorem KeptByMoves.step (hP : KeptByMoves P) (h : step s = .next t) (hs : P s) : P t := by
  obtain ⟨-, hstep⟩ | ⟨ev, rest, -, hev⟩ := step_cases h
  · exact hP.stepEvent hstep hs
  · exact hP.hostEvent hev (hP.setSchedule rest hs)

end

/-! ### The invariant: every update keeps it -/

section
variable {s : State}

theorem State.Inv.writeReg (h : s.Inv) (x : Reg) (v : Byte) : (s.writeReg x v).Inv := { h with }

theorem State.Inv.setPc (h : s.Inv) (v : Word) : (s.setPc v).Inv := { h with pcRange := wrapAddr_lt v }

theorem State.Inv.advance (h : s.Inv) : s.advance.Inv := h.setPc _

theorem State.Inv.skipIf (h : s.Inv) (c : Bool) : (s.skipIf c).Inv := h.setPc _

theorem State.Inv.setIndex (h : s.Inv) (v : Word) : (s.setIndex v).Inv := { h with indexRange := wrapAddr_lt v }

theorem State.Inv.writeByte (h : s.Inv) (a : Nat) (v : Byte) : (s.writeByte a v).Inv :=
  { h with memoryForm := s.writeByte_wf a v h.memoryForm }

theorem State.Inv.writeBytes (h : s.Inv) (a : Nat) (vs : List Byte) : (s.writeBytes a vs).Inv := by
  induction vs generalizing s a with
  | nil => exact h
  | cons v vs ih => exact ih (h.writeByte a v) (a + 1)

/-- A pushed entry is the address of an instruction. -/
theorem State.Inv.push (h : s.Inv) (hsp : s.sp.val < 16) : (s.push s.nextPc hsp).Inv :=
  { h with
    stackRange := fun k hk => by
      rw [State.push_stack, Vector.getElem_set]
      split
      · exact wrapAddr_lt _
      · exact h.stackRange k hk }

theorem State.Inv.pop (h : s.Inv) : s.pop.Inv := { h with }

theorem State.Inv.setDt (h : s.Inv) (v : Byte) : (s.setDt v).Inv := { h with }

theorem State.Inv.setSt (h : s.Inv) (v : Byte) : (s.setSt v).Inv := { h with }

theorem State.Inv.setFb (h : s.Inv) (fb : Framebuffer) : (s.setFb fb).Inv := { h with }

theorem State.Inv.countDraw (h : s.Inv) : s.countDraw.Inv := { h with }

theorem State.Inv.loadUpTo (h : s.Inv) (x : Reg) : (s.loadUpTo x).Inv := { h with }

theorem State.Inv.writeRF (h : s.Inv) (x : Reg) (r : Byte) (f : Bool) : (s.writeRF x r f).Inv := by
  unfold State.writeRF
  split
  · exact (h.writeReg x r).writeReg flagReg _
  · exact (h.writeReg flagReg _).writeReg x r

theorem State.Inv.afterKey (h : s.Inv) (k : Byte) : (s.afterKey k).Inv := by
  unfold State.afterKey
  split
  · exact h
  · exact h.countDraw

/-- Fatal entry latches a cause of R201 together with the halt. -/
theorem State.Inv.raiseFatal (h : s.Inv) (c : Cause) (w : Word) : (s.raiseFatal c w).Inv :=
  { h with latchRunning := nofun, latchHalted := fun _ => ⟨c, rfl⟩ }

theorem State.Inv.resetEvent (s : State) : s.resetEvent.Inv where
  pcRange := show (0x200#16).toNat < 4096 by decide
  indexRange := show (0#16).toNat < 4096 by decide
  stackRange k hk := by simp [State.resetEvent, State.reset]
  memoryForm := Memory.nil_wf _
  latchRunning _ := ⟨rfl, rfl⟩
  latchHalted := nofun

end

theorem State.reset_inv : State.reset.Inv := State.Inv.resetEvent State.reset

theorem exec_keeps_inv {i : Instr} {s t : State} (h : exec i s = .next t) (hs : s.Inv) : t.Inv := by
  cases i with
  | call nnn =>
    obtain ⟨hsp, rfl⟩ | rfl := exec_call_cases h
    · exact (hs.push hsp).setPc _
    · exact hs.raiseFatal _ _
  | ret =>
    obtain ⟨hsp, rfl⟩ | rfl := exec_ret_cases h
    · exact hs.pop.setPc _
    · exact hs.raiseFatal _ _
  | ldVxK x =>
    obtain ⟨k, -, rfl⟩ | ⟨-, rfl⟩ := exec_ldVxK_cases h
    · exact (hs.writeReg x _).advance
    · exact hs
  | cls => cases h; exact (hs.setFb _).advance
  | jp => cases h; exact hs.setPc _
  | seImm | sneImm | seReg | sneReg => cases h; exact hs.skipIf _
  | skp | sknp => cases h; exact (hs.afterKey _).skipIf _
  | ldImm | addImm | ldReg | orReg | andReg | xorReg | ldVxDt => cases h; exact (hs.writeReg _ _).advance
  | addReg | sub | shr | subn | shl => cases h; exact (hs.writeRF _ _ _).advance
  | ldI | addI | ldF => cases h; exact (hs.setIndex _).advance
  | rnd => cases h; exact (hs.countDraw.writeReg _ _).advance
  | drw => cases h; exact ((hs.setFb _).writeReg _ _).advance
  | ldDtVx => cases h; exact (hs.setDt _).advance
  | ldStVx => cases h; exact (hs.setSt _).advance
  | ldB => cases h; exact (hs.writeBytes _ _).advance
  | storeRegs => cases h; exact ((hs.writeBytes _ _).setIndex _).advance
  | loadRegs => cases h; exact ((hs.loadUpTo _).setIndex _).advance

theorem inv_keptByMoves : KeptByMoves State.Inv where
  exec := exec_keeps_inv
  raiseFatal c w h := h.raiseFatal c w
  resetEvent _ := State.Inv.resetEvent _
  writeBytes a vs h := h.writeBytes a vs
  setTimers dt st h := (h.setDt dt).setSt st
  keysEvent _ h := { h with }
  setSchedule _ h := { h with }

/-- Settles O12: every update keeps the invariant, so every instruction and every event does. -/
theorem everyMoveKeepsTheInvariant : Obligations.EveryMoveKeepsTheInvariant :=
  fun _ _ hs h => inv_keptByMoves.step h hs

/-- Settles O11: the reset state is a `Reset` of itself. -/
theorem resetStateIsLegal : Obligations.ResetStateIsLegal := State.reset_inv

/-! ### The sound timer is never observed (R29, R185) -/

/-- From two states that differ in `ST` alone the transition goes to two states that differ in `ST` alone. -/
def IgnoresSt (f : State → Host.Outcome State Fault Refusal) : Prop :=
  ∀ (s t : State) (v : Byte), f s = .next t → ∃ v', f (s.setSt v) = .next (t.setSt v')

section
variable (s : State) (v : Byte)

theorem State.setSt_writeRF (x : Reg) (r : Byte) (f : Bool) :
    (s.setSt v).writeRF x r f = (s.writeRF x r f).setSt v := by
  simp only [State.writeRF, State.setSt_params]
  split <;> rfl

theorem State.setSt_afterKey (k : Byte) : (s.setSt v).afterKey k = (s.afterKey k).setSt v := by
  unfold State.afterKey
  split <;> rfl

theorem State.setSt_writeBytes (a : Nat) (vs : List Byte) :
    (s.setSt v).writeBytes a vs = (s.writeBytes a vs).setSt v := by
  induction vs generalizing s a with
  | nil => rfl
  | cons b vs ih => exact ih (s.writeByte a b) (a + 1)

end

/-- Only `Fx18` writes `ST`, and with a value that does not depend on it. -/
theorem exec_ignoresSt (i : Instr) : IgnoresSt (exec i) := by
  intro s t v h
  cases i with
  | call nnn =>
    by_cases hsp : s.sp.val < 16
    · cases (execCall_of_room nnn hsp).symm.trans h
      exact ⟨v, execCall_of_room (s := s.setSt v) nnn hsp⟩
    · cases (execCall_of_full nnn hsp).symm.trans h
      exact ⟨v, execCall_of_full (s := s.setSt v) nnn hsp⟩
  | ret =>
    by_cases hsp : 0 < s.sp.val
    · cases (execRet_of_live hsp).symm.trans h
      exact ⟨v, execRet_of_live (s := s.setSt v) hsp⟩
    · cases (execRet_of_empty hsp).symm.trans h
      exact ⟨v, execRet_of_empty (s := s.setSt v) hsp⟩
  | ldVxK x =>
    obtain ⟨k, hk, rfl⟩ | ⟨hk, rfl⟩ := exec_ldVxK_cases h
    · exact ⟨v, execLdVxK_of_key (s := s.setSt v) x hk⟩
    · exact ⟨v, execLdVxK_of_no_key (s := t.setSt v) x hk⟩
  | ldStVx x => cases h; exact ⟨s.readReg x, rfl⟩
  | addReg | sub | shr | subn | shl =>
    cases h
    exact ⟨v, congrArg (fun u : State => Host.Outcome.next u.advance) (s.setSt_writeRF v _ _ _)⟩
  | skp | sknp =>
    cases h
    exact ⟨v, congrArg (fun u : State => Host.Outcome.next (u.skipIf _)) (s.setSt_afterKey v _)⟩
  | ldB =>
    cases h
    exact ⟨v, congrArg (fun u : State => Host.Outcome.next u.advance) (s.setSt_writeBytes v _ _)⟩
  | storeRegs x =>
    cases h
    exact ⟨v, congrArg (fun u : State => Host.Outcome.next (u.indexPast x).advance) (s.setSt_writeBytes v _ _)⟩
  | _ => cases h; exact ⟨v, rfl⟩

theorem stepEvent_ignoresSt : IgnoresSt State.stepEvent := by
  intro s t v h
  obtain ⟨hrun, rfl⟩ | ⟨hrun, i, hdec, hexec⟩ | ⟨hrun, w, hdec, rfl⟩ := State.stepEvent_cases h
  · exact ⟨v, State.stepEvent_of_halted hrun⟩
  · obtain ⟨v', hv'⟩ := exec_ignoresSt i s t v hexec
    exact ⟨v', (State.stepEvent_of_instr (s := s.setSt v) hrun hdec).trans hv'⟩
  · exact ⟨v, State.stepEvent_of_unsupported hrun hdec⟩

theorem State.setSt_tickEvent (s : State) (v : Byte) : ∃ v', (s.setSt v).tickEvent = s.tickEvent.setSt v' := by
  cases hrun : s.run with
  | running =>
    rw [State.tickEvent_of_running hrun, State.tickEvent_of_running (s := s.setSt v) hrun]
    exact ⟨countDown v, rfl⟩
  | halted =>
    rw [State.tickEvent_of_halted hrun, State.tickEvent_of_halted (s := s.setSt v) hrun]
    exact ⟨v, rfl⟩

theorem State.setSt_loadEvent (s : State) (v : Byte) (bytes : List Byte) :
    (s.setSt v).loadEvent bytes = (s.loadEvent bytes).setSt v := by
  simp only [State.loadEvent, State.setSt_run, State.setSt_writeBytes]
  split
  · split <;> rfl
  · rfl

theorem hostEvent_ignoresSt (ev : HostEvent) : IgnoresSt (State.hostEvent · ev) := by
  intro s t v h
  cases ev with
  | reset => cases h; exact ⟨0#8, rfl⟩
  | load bytes => cases h; exact ⟨v, congrArg _ (s.setSt_loadEvent v bytes)⟩
  | step => exact stepEvent_ignoresSt s t v h
  | tick =>
    cases h
    obtain ⟨v', hv'⟩ := s.setSt_tickEvent v
    exact ⟨v', congrArg _ hv'⟩
  | setKeys keys => cases h; exact ⟨v, rfl⟩

/-- Settles O20: every instruction and every event ignores `ST`, and the schedule does not hold it. -/
theorem soundTimerIsNeverObserved : Obligations.SoundTimerIsNeverObserved := by
  intro s t v h
  obtain ⟨hsched, hstep⟩ | ⟨ev, rest, hsched, hev⟩ := step_cases h
  · obtain ⟨v', hv'⟩ := stepEvent_ignoresSt s t v hstep
    exact ⟨v', (step_of_schedule_nil (s := s.setSt v) hsched).trans hv'⟩
  · obtain ⟨v', hv'⟩ := hostEvent_ignoresSt ev (s.setSchedule rest) t v hev
    exact ⟨v', (step_of_schedule_cons (s := s.setSt v) hsched).trans hv'⟩

end Sys2Proof.Machine

/-!
PROOFS. Fatal conditions and the halt (R88, R200 to R207, R210): every move has a next state, a `Step` that halts changes the
latch only and says why, and only `Reset` leaves the halt.
-/

namespace Sys2Proof

theorem decodeWord_eq_unsupported {w w' : Word} (h : decodeWord w = .unsupported w') : w' = w := by
  have hspells := decodeWord_spells w
  rwa [h] at hspells

end Sys2Proof

namespace Sys2Proof.Machine

/-! ### Every move has a next state (R200) -/

theorem State.stepEvent_next (s : State) : ∃ t, s.stepEvent = .next t := by
  cases hrun : s.run with
  | halted => exact ⟨s, State.stepEvent_of_halted hrun⟩
  | running =>
    cases hdec : decodeWord s.fetch with
    | instr i =>
      obtain ⟨t, hexec, -⟩ := exec_next_effect i s
      exact ⟨t, (State.stepEvent_of_instr hrun hdec).trans hexec⟩
    | unsupported w => exact ⟨_, State.stepEvent_of_unsupported hrun hdec⟩

theorem State.hostEvent_next (s : State) (ev : HostEvent) : ∃ t, s.hostEvent ev = .next t := by
  cases ev with
  | step => exact s.stepEvent_next
  | _ => exact ⟨_, rfl⟩

/-- Settles O8: an instruction has a next state, so a `Step` has one, so every event and every move has one. -/
theorem everyMoveHasANextState : Obligations.EveryMoveHasANextState := by
  intro s
  cases hsched : s.schedule with
  | nil => rw [step_of_schedule_nil hsched]; exact s.stepEvent_next
  | cons ev rest => rw [step_of_schedule_cons hsched]; exact State.hostEvent_next _ ev

/-! ### The move that is a `Step` (R90) -/

theorem step_of_unsupported {s : State} {w : Word} (hrun : s.run = .running) (hsched : s.schedule = [])
    (hdec : decodeWord s.fetch = .unsupported w) : step s = .next (s.raiseFatal .unsupportedInstruction w) :=
  (step_of_schedule_nil hsched).trans (State.stepEvent_of_unsupported hrun hdec)

/-- Settles O5: a move with an empty schedule is a `Step`, and so is one with `Step` at the head of the schedule. -/
theorem stepRunsTheDecodedInstruction : Obligations.StepRunsTheDecodedInstruction := by
  refine ⟨fun s i hrun hsched hdec => ?_, fun s i rest hrun hsched hdec => ?_,
    fun s w => step_of_unsupported, fun s hrun hsched => ⟨?_, State.stepOutcome_of_halted hrun⟩⟩
  · rw [step_of_schedule_nil hsched, State.stepEvent_of_instr hrun hdec]
  · exact (step_of_schedule_cons hsched).trans (State.stepEvent_of_instr (s := s.setSchedule rest) hrun hdec)
  · rw [step_of_schedule_nil hsched, State.stepEvent_of_halted hrun]

/-! ### Fatal conditions (R202, R206, R207) -/

/-- Settles O7: the latch takes the word decoded, which is the word fetched. -/
theorem unsupportedInstructionIsFatal : Obligations.UnsupportedInstructionIsFatal :=
  fun s w hrun hsched hdec => ⟨_, step_of_unsupported hrun hsched hdec, rfl, rfl, decodeWord_eq_unsupported hdec, rfl,
    onlyWrites_of_regs rfl [], raiseFatal_changes s _ w⟩

/-- The cause latched by a `Step` from `s` is the condition that holds there (R202 to R204). -/
inductive FatalAt (s : State) : Cause → Prop where
  | unsupported (hdec : decodeWord s.fetch = .unsupported s.fetch) : FatalAt s .unsupportedInstruction
  | overflow (hsp : s.sp.val = 16) (nnn : BitVec 12) (hdec : decodeWord s.fetch = .instr (.call nnn)) :
      FatalAt s .stackOverflow
  | underflow (hsp : s.sp.val = 0) (hdec : decodeWord s.fetch = .instr .ret) : FatalAt s .stackUnderflow

/-- A `Step` that halts the block is the fatal entry of a condition that holds, with the fetched word. -/
theorem State.stepEvent_halts {s t : State} (h : s.stepEvent = .next t) (hrun : s.run = .running)
    (ht : t.run = .halted) : ∃ c, t = s.raiseFatal c s.fetch ∧ FatalAt s c := by
  obtain ⟨hhalted, -⟩ | ⟨-, i, hdec, hexec⟩ | ⟨-, w, hdec, rfl⟩ := State.stepEvent_cases h
  · simp [hrun] at hhalted
  · obtain ⟨-, hword⟩ := wellFormed_and_encode_of_decodeWord hdec
    cases exec_effect hexec with
    | keepsLatch hlatch =>
      obtain ⟨hkeep, -, -⟩ := hlatch
      simp [hkeep, hrun] at ht
    | overflow nnn hi hsp => subst hi; exact ⟨_, by rw [hword], .overflow (by omega) nnn hdec⟩
    | underflow hi hsp => subst hi; exact ⟨_, by rw [hword], .underflow (by omega) hdec⟩
  · obtain rfl := decodeWord_eq_unsupported hdec
    exact ⟨_, rfl, .unsupported hdec⟩

/-- Settles O9: the frame of fatal entry, and the condition behind each cause. -/
theorem fatalConditionsArePrecise : Obligations.FatalConditionsArePrecise := by
  intro s t hrun hsched h ht
  rw [step_of_schedule_nil hsched] at h
  obtain ⟨c, rfl, hfatal⟩ := State.stepEvent_halts h hrun ht
  refine ⟨rfl, onlyWrites_of_regs rfl [], raiseFatal_changes s c _, rfl, rfl, ?_⟩
  cases hfatal with
  | unsupported hdec => exact .inl ⟨rfl, hdec⟩
  | overflow hsp nnn hdec => exact .inr (.inl ⟨rfl, hsp, nnn, hdec⟩)
  | underflow hsp hdec => exact .inr (.inr ⟨rfl, hsp, hdec⟩)

/-! ### The halt is sticky (R210) -/

theorem keysEvent_changes (s : State) (keys : BitVec 16) : onlyChanges s (s.keysEvent keys) [.keys] := by
  intro p hp
  cases p <;> simp_all [Part.same, State.readByte]

section
variable {s t : State}

/-- While halted an event is a `Reset` or leaves the latch. -/
theorem State.hostEvent_of_halted {ev : HostEvent} (hrun : s.run = .halted) (h : s.hostEvent ev = .next t) :
    ev = .reset ∨ Part.latch.same s t := by
  cases ev with
  | reset => exact .inl rfl
  | load bytes => cases h; exact .inr (by rw [State.loadEvent_of_halted hrun]; exact ⟨rfl, rfl, rfl⟩)
  | step => cases (State.stepEvent_of_halted hrun).symm.trans h; exact .inr ⟨rfl, rfl, rfl⟩
  | tick => cases h; exact .inr (by rw [State.tickEvent_of_halted hrun]; exact ⟨rfl, rfl, rfl⟩)
  | setKeys keys => cases h; exact .inr ⟨rfl, rfl, rfl⟩

/-- While halted a move is a `Reset`, which leaves the halt, or leaves the latch. -/
theorem step_of_halted (hrun : s.run = .halted) (h : step s = .next t) :
    (t.run = .running ∧ ∃ rest, s.schedule = .reset :: rest) ∨ Part.latch.same s t := by
  obtain ⟨-, hstep⟩ | ⟨ev, rest, hsched, hev⟩ := step_cases h
  · cases (State.stepEvent_of_halted hrun).symm.trans hstep
    exact .inr ⟨rfl, rfl, rfl⟩
  · obtain rfl | hlatch := State.hostEvent_of_halted (s := s.setSchedule rest) hrun hev
    · cases hev; exact .inl ⟨rfl, rest, hsched⟩
    · exact .inr hlatch

end

/-- Settles O13: the events one by one, then every move by what it leaves of the latch. -/
theorem haltIsSticky : Obligations.HaltIsSticky := by
  intro s hrun
  refine ⟨State.stepEvent_of_halted hrun, State.stepOutcome_of_halted hrun,
    congrArg _ (State.tickEvent_of_halted hrun), fun bytes => congrArg _ (State.loadEvent_of_halted hrun),
    fun keys => ⟨_, rfl, rfl, onlyWrites_of_regs rfl [], keysEvent_changes s keys⟩, ⟨_, rfl, rfl, rfl, rfl⟩,
    fun t h ht => ?_, fun t h ht => ?_⟩
  · obtain ⟨-, hreset⟩ | ⟨hkeep, -, -⟩ := step_of_halted hrun h
    · exact hreset
    · simp [hkeep, hrun] at ht
  · obtain ⟨hleft, -⟩ | ⟨-, hlatch⟩ := step_of_halted hrun h
    · simp [hleft] at ht
    · exact hlatch

end Sys2Proof.Machine

/-!
PROOFS. Who writes what (R12, R21, R23, R27 to R30, R35): the general registers, the other parts of the state and the
environment.
-/

namespace Sys2Proof.Machine

/-! ### General registers (R21, R23) -/

/-- Settles O14: every instruction that writes a register does so by one update, which leaves the others. -/
theorem onlyListedInstructionsWriteRegisters : Obligations.OnlyListedInstructionsWriteRegisters := by
  intro i s t r h hr
  cases i with
  | call nnn => obtain ⟨_, rfl⟩ | rfl := exec_call_cases h <;> rfl
  | ret => obtain ⟨_, rfl⟩ | rfl := exec_ret_cases h <;> rfl
  | ldVxK x =>
    have hne : x ≠ r := (ne_of_beq_false hr).symm
    obtain ⟨k, -, rfl⟩ | ⟨-, rfl⟩ := exec_ldVxK_cases h
    · rw [State.readReg_advance, State.readReg_writeReg, if_neg hne]
    · rfl
  | ldImm x | addImm x | ldReg x | orReg x | andReg x | xorReg x | rnd x | ldVxDt x =>
    cases h
    have hne : x ≠ r := (ne_of_beq_false hr).symm
    exact (State.readReg_writeReg ..).trans (if_neg hne)
  | addReg x | sub x | shr x | subn x | shl x =>
    cases h
    have hnot : r ∉ [x, 15] := by simpa [writesReg] using hr
    exact writeRF_onlyWrites s x _ _ r hnot
  | drw x y n =>
    cases h
    have hne : (15 : Reg) ≠ r := (ne_of_beq_false hr).symm
    exact (State.readReg_writeFlag ..).trans (if_neg hne)
  | loadRegs x =>
    cases h
    exact (State.readReg_loadUpTo s x r).trans (if_neg (of_decide_eq_false hr))
  | _ => cases h; simp

/-! ### The other parts of the state -/

/-- The parts an instruction can write: the framebuffer (R32), the call stack and with it the latch (R102, R103), the draws
(R123, R170), the timers (R28, R29), memory (R59) and `I` (R27). -/
def writtenParts : Instr → List Part
  | .cls | .drw _ _ _ => [.framebuffer]
  | .call _ | .ret => [.stack, .latch]
  | .rnd _ _ | .skp _ | .sknp _ => [.draws]
  | .ldDtVx _ => [.delayTimer]
  | .ldStVx _ => [.soundTimer]
  | .ldB _ => [.memory]
  | .storeRegs _ => [.memory, .index]
  | .ldI _ | .addI _ | .ldF _ | .loadRegs _ => [.index]
  | _ => []

theorem countDraw_changes (s : State) : onlyChanges s s.countDraw [.draws] := by
  intro p hp
  cases p <;> simp_all [Part.same]

theorem afterKey_changes (s : State) (k : Byte) : onlyChanges s (s.afterKey k) [.draws] := by
  unfold State.afterKey
  split
  · exact onlyChanges_refl s _
  · exact countDraw_changes s

/-- An instruction changes no part but those it can write. -/
theorem exec_changes {i : Instr} {s t : State} (h : exec i s = .next t) : onlyChanges s t (writtenParts i) := by
  cases i with
  | call nnn =>
    obtain ⟨hsp, rfl⟩ | rfl := exec_call_cases h
    · exact onlyChanges_setPc (onlyChanges_mono (push_changes s _ hsp) (by simp [writtenParts])) _
    · exact onlyChanges_mono (raiseFatal_changes s _ _) (by simp [writtenParts])
  | ret =>
    obtain ⟨_, rfl⟩ | rfl := exec_ret_cases h
    · exact onlyChanges_setPc (onlyChanges_mono (pop_changes s) (by simp [writtenParts])) _
    · exact onlyChanges_mono (raiseFatal_changes s _ _) (by simp [writtenParts])
  | ldVxK x =>
    obtain ⟨k, -, rfl⟩ | ⟨-, rfl⟩ := exec_ldVxK_cases h
    · exact onlyChanges_setPc (writeReg_changes s x _) _
    · exact onlyChanges_refl _ _
  | cls => cases h; exact onlyChanges_setPc (setFb_changes s _) _
  | drw => cases h; exact onlyChanges_setPc (onlyChanges_writeReg (setFb_changes s _) _ _) _
  | jp | seImm | sneImm | seReg | sneReg => cases h; exact onlyChanges_setPc (onlyChanges_refl s _) _
  | skp | sknp => cases h; exact onlyChanges_setPc (afterKey_changes s _) _
  | ldImm | addImm | ldReg | orReg | andReg | xorReg | ldVxDt =>
    cases h; exact onlyChanges_setPc (writeReg_changes s _ _) _
  | addReg | sub | shr | subn | shl => cases h; exact onlyChanges_setPc (writeRF_changes s _ _ _) _
  | rnd => cases h; exact onlyChanges_setPc (onlyChanges_writeReg (countDraw_changes s) _ _) _
  | ldI | addI | ldF => cases h; exact onlyChanges_setPc (setIndex_changes s _) _
  | ldDtVx => cases h; exact onlyChanges_setPc (setDt_changes s _) _
  | ldStVx => cases h; exact onlyChanges_setPc (setSt_changes s _) _
  | ldB => cases h; exact onlyChanges_setPc (writeBytes_changes s _ _) _
  | storeRegs x =>
    cases h
    have hstored : onlyChanges s (s.writeBytes (s.operandAddr 0) (s.regsUpTo x)) [.memory, .index] :=
      onlyChanges_mono (writeBytes_changes s _ _) (by simp)
    exact onlyChanges_indexPast_advance hstored x (by simp)
  | loadRegs x =>
    cases h
    exact onlyChanges_indexPast_advance (onlyChanges_mono (loadUpTo_changes s x) (by simp)) x (by simp [writtenParts])

section
variable {i : Instr} {s t : State}

theorem mem_writtenParts_of_not_same (h : exec i s = .next t) {p : Part} (hp : ¬ p.same s t) : p ∈ writtenParts i :=
  not_imp_comm.mp (exec_changes h p) hp

theorem index_mem_writtenParts (h : .index ∈ writtenParts i) :
    (∃ nnn, i = .ldI nnn) ∨ ∃ x, i = .addI x ∨ i = .ldF x ∨ i = .storeRegs x ∨ i = .loadRegs x := by
  cases i <;> simp_all [writtenParts]

theorem delayTimer_mem_writtenParts (h : .delayTimer ∈ writtenParts i) : ∃ x, i = .ldDtVx x := by
  cases i <;> simp_all [writtenParts]

theorem soundTimer_mem_writtenParts (h : .soundTimer ∈ writtenParts i) : ∃ x, i = .ldStVx x := by
  cases i <;> simp_all [writtenParts]

theorem stack_mem_writtenParts (h : .stack ∈ writtenParts i) : (∃ nnn, i = .call nnn) ∨ i = .ret := by
  cases i <;> simp_all [writtenParts]

theorem environment_not_mem_writtenParts (i : Instr) :
    .keys ∉ writtenParts i ∧ .params ∉ writtenParts i ∧ .schedule ∉ writtenParts i := by
  cases i <;> simp [writtenParts]

/-- A return leaves the entries as they are (R31). -/
theorem exec_ret_stack (h : exec .ret s = .next t) : t.stack = s.stack := by
  obtain ⟨_, rfl⟩ | rfl := exec_ret_cases h <;> rfl

theorem call_of_exec_stack_ne (h : exec i s = .next t) (hstack : t.stack ≠ s.stack) : ∃ nnn, i = .call nnn := by
  obtain hcall | rfl := stack_mem_writtenParts (mem_writtenParts_of_not_same h (p := .stack) (hstack ·.2))
  · exact hcall
  · exact absurd (exec_ret_stack h) hstack

end

/-- Settles O18: a part that changed is among those the instruction can write. -/
theorem onlyListedInstructionsWriteSpecialRegisters : Obligations.OnlyListedInstructionsWriteSpecialRegisters :=
  fun _ _ _ h =>
    ⟨fun hne => index_mem_writtenParts (mem_writtenParts_of_not_same h (p := .index) hne),
      fun hne => delayTimer_mem_writtenParts (mem_writtenParts_of_not_same h (p := .delayTimer) hne),
      fun hne => soundTimer_mem_writtenParts (mem_writtenParts_of_not_same h (p := .soundTimer) hne),
      call_of_exec_stack_ne h,
      fun hne => stack_mem_writtenParts (mem_writtenParts_of_not_same h (p := .stack) (hne ·.1))⟩

/-! ### The environment (R12, R35) -/

theorem params_keptByMoves (params : Params) : KeptByMoves (·.params = params) where
  exec {i} _ _ h hs := by
    obtain ⟨-, hparams, -⟩ := environment_not_mem_writtenParts i
    exact (exec_changes h .params hparams).trans hs
  raiseFatal _ _ hs := hs
  resetEvent hs := hs
  writeBytes _ _ hs := (State.writeBytes_params ..).trans hs
  setTimers _ _ hs := hs
  keysEvent _ hs := hs
  setSchedule _ hs := hs

/-- Settles O19: the keys and the schedule are no part an instruction writes, and every move keeps the parameters. -/
theorem environmentIsNotWritten : Obligations.EnvironmentIsNotWritten := by
  refine ⟨fun i s t h => ?_, fun s t h => (params_keptByMoves s.params).step h rfl⟩
  obtain ⟨hkeys, -, hschedule⟩ := environment_not_mem_writtenParts i
  exact ⟨exec_changes h .keys hkeys, exec_changes h .schedule hschedule⟩

end Sys2Proof.Machine

/-!
PROOFS. Overflow and underflow of the call stack (R203, R204): instructions one after the other, and the calls and returns
among them.
-/

namespace Sys2Proof.Machine

/-! ### Instructions one after the other -/

section
variable {i : Instr} {rest : List Instr} {s t u : State}

theorem execAll_cons_cases (h : execAll (i :: rest) s = .next u) :
    ∃ t, exec i s = .next t ∧ execAll rest t = .next u := by
  obtain ⟨t, hexec, -⟩ := exec_next_effect i s
  exact ⟨t, hexec, (execAll_cons_of_next rest hexec).symm.trans h⟩

theorem execAll_append_of_next {instrs : List Instr} (h : execAll instrs s = .next t) :
    execAll (instrs ++ rest) s = execAll rest t := by
  induction instrs generalizing s with
  | nil => cases h; rfl
  | cons i instrs ih =>
    obtain ⟨u, hexec, htail⟩ := execAll_cons_cases h
    exact (execAll_cons_of_next _ hexec).trans (ih htail)

/-! ### A return that no call precedes (R204) -/

theorem exec_keeps_sp (h : exec i s = .next t) (hcall : ∀ nnn, i ≠ .call nnn) (hret : i ≠ .ret) : t.sp = s.sp := by
  refine (exec_changes h .stack fun hmem => ?_).1
  obtain ⟨nnn, hi⟩ | hi := stack_mem_writtenParts hmem
  · exact hcall nnn hi
  · exact hret hi

theorem execAll_keeps_sp {instrs : List Instr} (hinstrs : ∀ i ∈ instrs, (∀ nnn, i ≠ .call nnn) ∧ i ≠ .ret)
    (h : execAll instrs s = .next t) : t.sp = s.sp := by
  induction instrs generalizing s with
  | nil => cases h; rfl
  | cons i instrs ih =>
    obtain ⟨u, hexec, htail⟩ := execAll_cons_cases h
    obtain ⟨⟨hcall, hret⟩, hinstrs⟩ := List.forall_mem_cons.mp hinstrs
    exact (ih hinstrs htail).trans (exec_keeps_sp hexec hcall hret)

end

/-- Settles O30: the stack is empty after `Reset`, and instructions that are no call and no return leave it so. -/
theorem returnWithEmptyStackIsFatal : Obligations.ReturnWithEmptyStackIsFatal := by
  refine ⟨fun s => rfl, fun s t instrs hsp hinstrs h => ?_⟩
  have hempty : ¬ 0 < t.sp.val := by rw [execAll_keeps_sp hinstrs h]; omega
  exact ⟨_, execRet_of_empty hempty, rfl, rfl, rfl⟩

/-! ### Calls in a row (R203) -/

/-- Calls that the stack has room for deepen it by one each. -/
theorem execAll_calls_of_room (targets : List (BitVec 12)) {s : State} (hroom : s.sp.val + targets.length ≤ 16) :
    ∃ t, execAll (targets.map .call) s = .next t ∧ t.sp.val = s.sp.val + targets.length ∧ t.run = s.run := by
  induction targets generalizing s with
  | nil => exact ⟨s, rfl, rfl, rfl⟩
  | cons nnn targets ih =>
    rw [List.length_cons] at hroom ⊢
    have hsp : s.sp.val < 16 := by omega
    have hdeeper : ((s.push s.nextPc hsp).setPc (address nnn)).sp.val = s.sp.val + 1 := rfl
    have hcall : exec (.call nnn) s = .next ((s.push s.nextPc hsp).setPc (address nnn)) := execCall_of_room nnn hsp
    obtain ⟨t, hrest, hdepth, hrun⟩ := ih (s := (s.push s.nextPc hsp).setPc (address nnn)) (by omega)
    exact ⟨t, (execAll_cons_of_next _ hcall).trans hrest, by omega, hrun⟩

theorem exec_call_of_full (nnn : BitVec 12) {s : State} (hsp : s.sp.val = 16) :
    exec (.call nnn) s = .next (s.raiseFatal .stackOverflow (encode (.call nnn))) :=
  execCall_of_full nnn (by omega)

/-- Settles O31: sixteen calls fill an empty stack, and the next one is the fatal entry. -/
theorem seventeenthCallIsFatal : Obligations.SeventeenthCallIsFatal := by
  refine ⟨fun nnn s hsp => ⟨_, exec_call_of_full nnn hsp, rfl, rfl, rfl, rfl⟩, fun s targets last hsp hrun hlen => ?_⟩
  obtain ⟨t, hcalls, hdepth, hkeep⟩ := execAll_calls_of_room targets (s := s) (by omega)
  have hfull : t.sp.val = 16 := by omega
  have hlast : execAll (targets.map .call ++ [.call last]) s =
      .next (t.raiseFatal .stackOverflow (encode (.call last))) :=
    (execAll_append_of_next hcalls).trans (execAll_cons_of_next [] (exec_call_of_full last hfull))
  exact ⟨⟨t, hcalls, hfull, hkeep.trans hrun⟩, _, hlast, hfull, rfl, rfl⟩

end Sys2Proof.Machine

/-!
PROOFS. `Reset` (R36, R240 to R242) and `Load` (R205, R244): what every byte and every part is after them.
-/

namespace Sys2Proof.Machine

/-! ### Reset (R36, R240, R242) -/

theorem Memory.unlisted_of_lt (font : Font) {a : Nat} (ha : a < 80) : Memory.unlisted font a = font[a] := dif_pos ha

theorem Memory.unlisted_of_ge (font : Font) {a : Nat} (ha : 80 ≤ a) : Memory.unlisted font a = 0#8 :=
  dif_neg (Nat.not_lt_of_le ha)

section
variable (s : State)

theorem State.readReg_resetEvent (r : Reg) : s.resetEvent.readReg r = 0#8 := Vector.getElem_replicate _

theorem State.readByte_resetEvent {a : Nat} (ha : a < 4096) :
    s.resetEvent.readByte a = Memory.unlisted s.params.font a :=
  congrArg (Memory.unlisted s.params.font) (Nat.mod_eq_of_lt ha)

theorem State.readByte_resetEvent_of_font {a : Nat} (ha : a < 80) : s.resetEvent.readByte a = s.params.font[a] :=
  (s.readByte_resetEvent (by omega)).trans (Memory.unlisted_of_lt _ ha)

theorem State.readByte_resetEvent_of_ge {a : Nat} (hfont : 80 ≤ a) (ha : a < 4096) : s.resetEvent.readByte a = 0#8 :=
  (s.readByte_resetEvent ha).trans (Memory.unlisted_of_ge _ hfont)

/-- `Reset` keeps only what is not the block's state, and its value does not depend on the rest. -/
theorem State.resetEvent_idem : s.resetEvent.resetEvent = s.resetEvent := rfl

end

/-- Settles O22: the reset values, memory by the byte that no entry hides, and that a second `Reset` finds them. -/
theorem resetFromAnyState : Obligations.ResetFromAnyState :=
  ⟨rfl, fun s => ⟨s.resetEvent, rfl, s.readReg_resetEvent, rfl, rfl, rfl, fun _ _ => Vector.getElem_replicate _, rfl, rfl,
    fun _ => s.readByte_resetEvent_of_font, fun _ => s.readByte_resetEvent_of_ge, pixel_clear, rfl, rfl, rfl, rfl,
    congrArg _ s.resetEvent_idem⟩⟩

/-! ### A `Step` after `Reset` with no `Load` (R241) -/

theorem State.fetch_resetEvent (s : State) : s.resetEvent.fetch = 0x0000#16 := by
  have hhigh : s.resetEvent.readByte 0x200 = 0#8 := s.readByte_resetEvent_of_ge (by decide) (by decide)
  have hlow : s.resetEvent.readByte 0x201 = 0#8 := s.readByte_resetEvent_of_ge (by decide) (by decide)
  exact congrArg₂ wordOfBytes hhigh hlow

/-- Settles O23: the bytes at `0x200` are erased, and the word `0x0000` is no instruction. -/
theorem stepWithoutLoadHalts : Obligations.StepWithoutLoadHalts := by
  refine fun s => ⟨fun a ha => s.readByte_resetEvent_of_ge (by omega), ?_⟩
  have hdec : decodeWord s.resetEvent.fetch = .unsupported 0x0000#16 := by rw [s.fetch_resetEvent]; rfl
  exact ⟨_, State.stepEvent_of_unsupported rfl hdec, rfl, rfl, rfl, rfl⟩

/-! ### Load (R205, R244) -/

section
variable {s : State} {bytes : List Byte}

@[simp] theorem State.loadEvent_pc : (s.loadEvent bytes).pc = s.pc := by
  unfold State.loadEvent
  split
  · split
    · rfl
    · exact State.writeBytes_pc ..
  · rfl

@[simp] theorem State.loadEvent_regs : (s.loadEvent bytes).regs = s.regs := by
  unfold State.loadEvent
  split
  · split
    · rfl
    · exact State.writeBytes_regs ..
  · rfl

/-- An image that fits does not meet itself around the end of memory. -/
theorem State.readByte_loadEvent_of_inside (hrun : s.run = .running) (hlen : bytes.length ≤ 3584) (k : Nat)
    (hk : k < bytes.length) : (s.loadEvent bytes).readByte (0x200 + k) = bytes[k] := by
  rw [State.loadEvent_of_fits hrun hlen]
  exact State.writeBytes_inside s 0x200 bytes (by omega) k hk

end

/-- Settles O24: the image in place and every other byte as it was; the fatal entry; nothing while halted. -/
theorem loadPlacesTheImage : Obligations.LoadPlacesTheImage := by
  intro s bytes
  refine ⟨s.loadEvent bytes, rfl, State.loadEvent_pc, onlyWrites_of_regs State.loadEvent_regs [],
    fun hrun hlen => ⟨State.readByte_loadEvent_of_inside hrun hlen, fun a ha hout => ?outside, ?frame⟩,
    fun hrun hlen => ?tooLarge, State.loadEvent_of_halted⟩
  case outside => exact State.readByte_loadEvent_of_outside ha (by omega)
  case frame => rw [State.loadEvent_of_fits hrun hlen]; exact writeBytes_changes s _ _
  case tooLarge =>
    rw [State.loadEvent_of_tooLarge hrun hlen]
    exact ⟨rfl, rfl, rfl, raiseFatal_changes s _ _⟩

/-- Settles O25: one byte beyond 3584 is the fatal entry, which writes no byte; 3584 bytes still fit. -/
theorem loadTooLargeIsFatal : Obligations.LoadTooLargeIsFatal := by
  intro s bytes hrun
  refine ⟨fun hlen => ⟨_, congrArg _ (State.loadEvent_of_tooLarge hrun hlen), rfl, rfl, fun _ => rfl⟩, fun hlen => ?_⟩
  have hkeep : (s.loadEvent bytes).run = .running := by
    rw [State.loadEvent_of_fits hrun hlen.le, State.writeBytes_run, hrun]
  exact ⟨_, rfl, hkeep, State.readByte_loadEvent_of_inside hrun hlen.le⟩

end Sys2Proof.Machine

/-!
PROOFS. The words that are no instruction (R87, R88), family by family, and words of the spec.
-/

namespace Sys2Proof

/-! ### The families that decide on the word, on the low nibble or on `KK` (R87) -/

section
variable (w : Word)

theorem decodeFamily0_eq_unsupported_iff : decodeFamily0 w = .unsupported w ↔ w ≠ 0x00E0#16 ∧ w ≠ 0x00EE#16 := by
  unfold decodeFamily0
  split_ifs <;> simp_all

theorem decodeFamily8_eq_unsupported_iff :
    decodeFamily8 w = .unsupported w ↔ fieldN w ∈ [0x8#4, 0x9#4, 0xA#4, 0xB#4, 0xC#4, 0xD#4, 0xF#4] := by
  unfold decodeFamily8
  split
  case h_10 =>
    have hlt := (fieldN w).isLt
    simp only [true_iff, imp_false, List.mem_cons, List.not_mem_nil, or_false, ← BitVec.toNat_inj,
      BitVec.toNat_ofNat] at *
    omega
  all_goals
    next hn => simp [← BitVec.toNat_inj, hn]

theorem decodeFamilyE_eq_unsupported_iff : decodeFamilyE w = .unsupported w ↔ fieldKK w ∉ [0x9E#8, 0xA1#8] := by
  unfold decodeFamilyE
  split_ifs <;> simp_all

theorem decodeFamilyF_eq_unsupported_iff :
    decodeFamilyF w = .unsupported w ↔
      fieldKK w ∉ [0x07#8, 0x0A#8, 0x15#8, 0x18#8, 0x1E#8, 0x29#8, 0x33#8, 0x55#8, 0x65#8] := by
  unfold decodeFamilyF
  split_ifs <;> simp_all

end

/-- Settles O3: the families in order, the empty family B last. -/
theorem illegalWordsByFamily : Obligations.IllegalWordsByFamily := by
  intro w
  have hlt := (fieldI3 w).isLt
  simp only [← BitVec.toNat_inj (x := fieldI3 w), BitVec.toNat_ofNat]
  unfold decodeWord
  split
  case h_16 =>
    simp only [true_iff, imp_false] at *
    omega
  all_goals
    next h3 =>
      simp [h3, decodeFamily0_eq_unsupported_iff, decodeFamily8_eq_unsupported_iff, decodeFamilyE_eq_unsupported_iff,
        decodeFamilyF_eq_unsupported_iff]

/-- Settles O4: nine words, each decoded. -/
theorem wordsOfTheSpecDecode : Obligations.WordsOfTheSpecDecode := by
  unfold Obligations.WordsOfTheSpecDecode
  decide

end Sys2Proof

/-!
PROOFS. The free values (R12, R123, R170) and the skips on a key (R171, R172).
-/

namespace Sys2Proof

/-! ### The words of family E (R86) -/

/-- The low byte selects the instruction, so it is read together with the family's nibble. -/
theorem toNat_formatX_familyE (x : Reg) (sub : Byte) :
    (formatX 0xE#4 x sub).toNat = 0xE000 + sub.toNat + x.val * 0x100 := by
  have hop : (0xE#4).toNat = 14 := rfl
  rw [toNat_formatX, hop]; omega

end Sys2Proof

namespace Sys2Proof.Machine

/-! ### The random byte (R123) -/

theorem masked_and_not_mask (b kk : Byte) : b &&& kk &&& ~~~kk = 0#8 := by
  rw [BitVec.and_assoc, BitVec.and_not_self]
  exact BitVec.and_zero

/-- Settles O36: one draw, masked, in one register. -/
theorem randomByteIsMasked : Obligations.RandomByteIsMasked := by
  intro x kk s
  have hread : (s.countDraw.writeReg x (s.rand &&& kk)).advance.readReg x = Config.rnd s.draws &&& kk :=
    (State.readReg_writeReg ..).trans (if_pos rfl)
  exact ⟨toNat_formatXKK 0xC#4 x kk, _, rfl, hread, rfl, goesOn_advance rfl, onlyWrites_of_set rfl,
    onlyChanges_setPc (onlyChanges_writeReg (countDraw_changes s) x _) _,
    (congrArg (· &&& ~~~kk) hread).trans (masked_and_not_mask _ kk)⟩

/-! ### Skips on a key (R170 to R172) -/

section
variable {s : State} {x : Reg}

theorem exec_skp_of_index (hx : (s.readReg x).toNat < 16) :
    exec (.skp x) s = .next (s.skipIf (s.keys.getLsbD (s.readReg x).toNat)) := by
  simp only [exec, execSkp, State.afterKey, State.key, if_pos hx]

theorem exec_sknp_of_index (hx : (s.readReg x).toNat < 16) :
    exec (.sknp x) s = .next (s.skipIf (!s.keys.getLsbD (s.readReg x).toNat)) := by
  simp only [exec, execSknp, State.afterKey, State.key, if_pos hx]

theorem exec_skp_outOfRange (hx : 16 ≤ (s.readReg x).toNat) :
    exec (.skp x) s = .next (s.countDraw.skipIf (Config.keyOor s.draws)) := by
  simp only [exec, execSkp, State.afterKey, State.key, if_neg (Nat.not_lt_of_le hx)]

theorem exec_sknp_outOfRange (hx : 16 ≤ (s.readReg x).toNat) :
    exec (.sknp x) s = .next (s.countDraw.skipIf (!Config.keyOor s.draws)) := by
  simp only [exec, execSknp, State.afterKey, State.key, if_neg (Nat.not_lt_of_le hx)]

end

/-- An instruction that draws, ends in `skipIf c` and does nothing else skips when the condition that `c` tests holds. -/
theorem exists_countDraw_skipIf {i : Instr} {s : State} {c : Bool} {cond : Prop}
    (h : exec i s = .next (s.countDraw.skipIf c)) (hc : c = true ↔ cond) :
    ∃ t, exec i s = .next t ∧ skipsWhen cond s t ∧ t.draws = s.draws + 1 ∧ onlyWrites s t [] ∧
      onlyChanges s t [.draws] :=
  ⟨_, h, propext hc ▸ skipsWhen_skipIf c rfl, rfl, onlyWrites_of_regs rfl [],
    onlyChanges_setPc (countDraw_changes s) _⟩

/-- Settles O46: the two words, and each skip by the level of the key it tests. -/
theorem skipsOnKey : Obligations.SkipsOnKey := fun x _ =>
  ⟨toNat_formatX_familyE x 0x9E#8, toNat_formatX_familyE x 0xA1#8, fun hx =>
    ⟨exists_skipIf (exec_skp_of_index hx) Iff.rfl, exists_skipIf (exec_sknp_of_index hx) (iff_of_eq (Bool.not_eq_true' _))⟩⟩

/-- Settles O47: each skip by the free Boolean of its one draw. -/
theorem keyIndexOutOfRangeIsADraw : Obligations.KeyIndexOutOfRangeIsADraw := fun _ _ hx =>
  ⟨exists_countDraw_skipIf (exec_skp_outOfRange hx) Iff.rfl,
    exists_countDraw_skipIf (exec_sknp_outOfRange hx) (iff_of_eq (Bool.not_eq_true' _))⟩

end Sys2Proof.Machine

/-!
PROOFS. Instructions in sequence: a store and the fetch after it (R64), a store and a load of registers (R196), and the same
sprite drawn twice (R157).
-/

namespace Sys2Proof.Machine

/-! ### A store and the next fetch (R64) -/

theorem State.readByte_eq_of_mod_eq (s : State) {a b : Nat} (h : a % 4096 = b % 4096) : s.readByte a = s.readByte b := by
  rw [← State.readByte_mod, h, State.readByte_mod]

/-- Settles O21: the next fetch is at the operand addresses 0 and 1 of the store. -/
theorem storesReachTheNextFetch : Obligations.StoresReachTheNextFetch := by
  intro x s hx hindex
  obtain ⟨-, t, hexec, hstored, -, -, hpc, -, -⟩ := storeRegistersAndMoveIndex x s
  unfold goesOn at hpc
  have hhigh : t.readByte t.pc.toNat = s.readReg 0 :=
    (t.readByte_eq_of_mod_eq (by simp only [State.operandAddr]; omega)).trans (hstored 0 (Nat.zero_le _))
  have hlow : t.readByte (t.pc.toNat + 1) = s.readReg 1 :=
    (t.readByte_eq_of_mod_eq (by simp only [State.operandAddr]; omega)).trans (hstored 1 hx)
  exact ⟨t, hexec, by rw [State.fetch, toNat_wordOfBytes, hhigh, hlow]⟩

/-! ### A store and a load of registers (R196) -/

theorem State.operandAddr_congr {s t : State} (h : t.index.toNat = s.index.toNat) (k : Nat) :
    t.operandAddr k = s.operandAddr k := congrArg (· + k) h

/-- With `I` reloaded in between, a load reads what the store wrote. -/
theorem execAll_store_reload_load (x : Reg) {nnn : BitVec 12} {s : State} (hindex : s.index.toNat = nnn.toNat) :
    ∃ t, execAll [.storeRegs x, .ldI nnn, .loadRegs x] s = .next t ∧ onlyWrites s t [] := by
  obtain ⟨-, t, hstore, hstored, -, -, -, htregs, -⟩ := storeRegistersAndMoveIndex x s
  obtain ⟨-, u, hreload, huindex, -, huregs, huchanges⟩ := loadIndexRegister nnn t
  obtain ⟨-, v, hload, hloaded, hkept, -, -, -⟩ := loadRegistersAndMoveIndex x u
  have hmem : Part.memory.same t u := huchanges .memory (by simp)
  have haddr : ∀ k, u.operandAddr k = s.operandAddr k := State.operandAddr_congr (huindex.trans hindex.symm)
  refine ⟨v, ?_, fun r _ => ?_⟩
  · rw [execAll_cons_of_next _ hstore, execAll_cons_of_next _ hreload, execAll_cons_of_next _ hload]; rfl
  · obtain hr | hr := Nat.lt_or_ge x.val r.val
    · calc v.readReg r
        _ = u.readReg r := hkept r hr
        _ = t.readReg r := huregs r List.not_mem_nil
        _ = s.readReg r := htregs r List.not_mem_nil
    · calc v.readReg r
        _ = u.readByte (u.operandAddr r.val) := hloaded r hr
        _ = t.readByte (s.operandAddr r.val) := by rw [haddr]; exact hmem _
        _ = s.readReg r := hstored r hr

/-- Without it the load reads on behind the stored range, which the store left alone. -/
theorem execAll_store_load (x : Reg) (s : State) :
    ∃ t, execAll [.storeRegs x, .loadRegs x] s = .next t ∧
      ∀ r : Reg, r.val ≤ x.val → t.readReg r = s.readByte (s.operandAddr (x.val + 1 + r.val)) := by
  obtain ⟨-, t, hstore, -, houtside, htindex, -, -, -⟩ := storeRegistersAndMoveIndex x s
  obtain ⟨-, u, hload, hloaded, -, -, -, -⟩ := loadRegistersAndMoveIndex x t
  refine ⟨u, ?_, fun r hr => ?_⟩
  · rw [execAll_cons_of_next _ hstore, execAll_cons_of_next _ hload]; rfl
  · have haddr : t.operandAddr r.val % 4096 = s.operandAddr (x.val + 1 + r.val) % 4096 := by
      simp only [State.operandAddr, htindex]; omega
    have hbehind : ∀ k, k < x.val + 1 →
        s.operandAddr (x.val + 1 + r.val) % 4096 ≠ (s.operandAddr 0 + k) % 4096 := by
      intro k hk
      simp only [State.operandAddr]; omega
    calc u.readReg r
      _ = t.readByte (t.operandAddr r.val) := hloaded r hr
      _ = t.readByte (s.operandAddr (x.val + 1 + r.val)) := t.readByte_eq_of_mod_eq haddr
      _ = s.readByte (s.operandAddr (x.val + 1 + r.val)) := houtside _ hbehind

/-- Settles O55: the two sequences. -/
theorem storeThenLoadNeedsTheIndexReloaded : Obligations.StoreThenLoadNeedsTheIndexReloaded :=
  fun x _ s hindex => ⟨execAll_store_reload_load x hindex, execAll_store_load x s⟩

/-! ### The same sprite drawn twice (R157) -/

/-- What a draw does, for any row count. -/
theorem exists_exec_drw (x y : Reg) (n : Nat) (s : State) :
    ∃ t, exec (.drw x y n) s = .next t ∧
      (∀ r c, r < 32 → c < 64 → pixel t.fb r c = (spriteBit s x y n r c ^^ pixel s.fb r c)) ∧
      isFlag (t.readReg 15) (collides s x y n) ∧ onlyWrites s t [15] ∧ onlyChanges s t [.framebuffer] := by
  have hflag : ((s.setFb (s.drawSprite x y n).fb).writeFlag (s.drawSprite x y n).hit).advance.readReg 15 =
      flagByte (s.drawSprite x y n).hit := (State.readReg_writeFlag ..).trans (if_pos rfl)
  exact ⟨_, rfl, fun _ _ => s.pixel_drawSprite x y n, hflag ▸ isFlag_flagByte (s.hit_drawSprite_iff x y n),
    onlyWrites_of_set rfl, onlyChanges_setPc (onlyChanges_writeReg (setFb_changes s _) flagReg _) _⟩

section
variable {s t : State} {x y : Reg} {n : Nat}

/-- A draw leaves the sprite: its coordinates, unless one is the flag register, `I` and memory. -/
theorem spriteBit_of_drawn (hx : x ≠ 15) (hy : y ≠ 15) (hregs : onlyWrites s t [15])
    (hchanges : onlyChanges s t [.framebuffer]) : spriteBit t x y n = spriteBit s x y n := by
  have hindex : t.index = s.index := hchanges .index (by simp)
  have hmem : ∀ a, t.readByte a = s.readByte a := hchanges .memory (by simp)
  funext r c
  simp only [spriteBit, State.operandAddr, hregs x (by simpa using hx), hregs y (by simpa using hy), hindex, hmem]

/-- On a clear grid nothing collides. -/
theorem not_collides_of_clear (hclear : ∀ r c, r < 32 → c < 64 → pixel s.fb r c = false) : ¬ collides s x y n := by
  rintro ⟨r, c, hr, hc, -, hlit⟩
  simp [hclear r c hr hc] at hlit

end

/-- Settles O44: XOR with the same bit twice; after the first draw on a clear grid the lit pixels are the sprite's. -/
theorem drawTwiceRestores : Obligations.DrawTwiceRestores := by
  intro x y n s hx hy
  obtain ⟨t, hfirst, htpixel, htflag, htregs, htchanges⟩ := exists_exec_drw x y n s
  obtain ⟨u, hsecond, hupixel, huflag, -, -⟩ := exists_exec_drw x y n t
  have hsprite : spriteBit t x y n = spriteBit s x y n := spriteBit_of_drawn hx hy htregs htchanges
  refine ⟨t, u, hfirst, hsecond, framebuffer_ext _ _ fun r c hr hc => ?restored, fun hclear => ⟨?first, ?second⟩⟩
  case restored => rw [hupixel r c hr hc, htpixel r c hr hc, hsprite, ← Bool.xor_assoc, Bool.xor_self, Bool.false_xor]
  case first => exact htflag.2 (not_collides_of_clear hclear)
  case second =>
    have hlit : ∀ r c, r < 32 → c < 64 → pixel t.fb r c = spriteBit s x y n r c := fun r c hr hc => by
      rw [htpixel r c hr hc, hclear r c hr hc, Bool.xor_false]
    have hcollides : collides t x y n ↔ ∃ r c, r < 32 ∧ c < 64 ∧ spriteBit s x y n r c = true := by
      unfold collides
      constructor
      · rintro ⟨r, c, hr, hc, -, hpixel⟩; exact ⟨r, c, hr, hc, hlit r c hr hc ▸ hpixel⟩
      · rintro ⟨r, c, hr, hc, hbit⟩; exact ⟨r, c, hr, hc, hsprite ▸ hbit, (hlit r c hr hc).trans hbit⟩
    exact propext hcollides ▸ huflag

end Sys2Proof.Machine
